-- ==== Sys2Proof/Word.lean ====
section
/-! DEFINITION. The word types of the Kylobel 4860 model: register and instruction words are 64 bits wide and every
memory cell is one byte (00_scope.md R12, R13). -/
namespace Sys2Proof

/-- One byte of memory or of a wire frame. -/
abbrev Byte := BitVec 8

/-- A 64-bit register, instruction or descriptor word. -/
abbrev Word := BitVec 64

end Sys2Proof
end

