-- ==== Sys2Proof/Syntax.lean ====
section
/-! DEFINITION. The commands of the block: ONE inductive `Instr`, one constructor per row of spec/opcode_table.json, and
the plain data its operands are made of.  A Plynax row carries the issuing member and the instruction's own words
(03_plynax_programs.md R139); a register-write row carries who writes and what; an event row carries what the outside
world decides. -/
namespace Sys2Proof

/-- A sequencer of a core: a member of a stream is one context slot of one logical core (R3, R120, R138). -/
structure Member where
  die : Fin 2
  core : Fin 16
  bf : Bool
deriving DecidableEq, Repr

/-- Who makes a register access: a host core, which acts as partition 0 (R613), or a control core. -/
inductive Src where
  | host
  | control
deriving DecidableEq, Repr

/-- The management channels (R622 to R624; CHANNEL codes of R628): control-core firmware, host registers, I3C, SMBus,
service port; the principal's 16 bits go into the change log. -/
inductive Channel where
  | firmware
  | host
  | i3c (eid : BitVec 16)
  | smbus (eid : BitVec 16)
  | service (client : BitVec 16)
deriving DecidableEq, Repr

/-- Who asks for a power state or a reset: a register write, or a management request (R689, R695, R698). -/
inductive Requester where
  | reg (src : Src)
  | mgmt (ch : Channel)
deriving DecidableEq, Repr

/-- The header of a tile frame (06_tiles_tiers_placement.md R286). -/
structure Header where
  fmt : BitVec 4 := 0
  klog2 : BitVec 4 := 0
  part : BitVec 10 := 0
  sat : Bool := false
  poison : Bool := false
  empty : Word := 0
  stamp : BitVec 32 := 0
  layer : BitVec 16 := 0
  oper : BitVec 16 := 0
deriving DecidableEq, Repr

/-- A tile frame: header, 512 sideband bytes and 8,192 data bytes (R283).  Bytes past the end of a shorter list are zero. -/
structure Frame where
  hdr : Header := {}
  side : List Byte := []
  data : List Byte := []
deriving DecidableEq, Repr

/-- The kind of a host-core access (R420, R570). -/
inductive HostOp where
  | load
  | store
  | amoAdd
  | amoSwap
  | amoXor
  | amoAnd
  | amoOr
  | amoMin
  | amoMax
  | amoMinu
  | amoMaxu
  | lr
  | sc
deriving DecidableEq, Repr

/-- A host-core access to the physical map: `data` are the bytes stored or the AMO operand; `keep` says that the
stored line stays modified in a host-die cache, which R432 and R433 leave to the cache. -/
structure HostAccess where
  op : HostOp
  addr : Nat
  size : Nat
  data : List Byte
  keep : Bool
deriving DecidableEq, Repr

/-- A memory request of a PCIe device, as its IOMMU outcome: the physical address it was translated to, or a fault
(R421), or an MSI for an IMSIC file. -/
inductive PcieReq where
  | read (pa : Nat) (len : Nat)
  | write (pa : Nat) (data : List Byte)
  | msi (hart : Fin 32) (file : Fin 8) (eiid : BitVec 11)
  | iommuFault
deriving DecidableEq, Repr

/-- An arriving tile contribution (R269): destination physical address, tag, contributor index, the format of the
contribution, the destination format it names if any (R562), the tile, and the core that pushed it, if one of this die. -/
structure Arrival where
  addr : Nat
  tag : BitVec 16
  idx : BitVec 6
  sfmt : BitVec 4
  dfmt : Option (BitVec 4)
  f : Frame
  origin : Option (BitVec 32)
  pusher : Option (Fin 2 × Fin 20)
deriving DecidableEq, Repr

/-- What the SRAM scrubber finds on one word (R372, R375): the source number, the address or unit, and whether the
word can be corrected. -/
structure SramError where
  source : Nat
  addr : Nat
  uncorrectable : Bool
deriving DecidableEq, Repr

/-- R448: an SBI reset call of type cold or warm reboot, a shutdown call, or a double trap of a host core. -/
inductive SbiReset where
  | reboot
  | shutdown
  | doubleTrap (hart : Fin 32)
deriving DecidableEq, Repr

/-- A hello frame's payload (R469) with the source MAC address of its frame (R483). -/
structure Hello where
  version : BitVec 16
  up : Bool
  seen : Bool
  leaving : Bool
  serial : Word
  valid : Bool
  package : BitVec 12
  lane : BitVec 8
  role : BitVec 8
  linc : BitVec 16
  mac : BitVec 48
deriving DecidableEq, Repr

/-- A frame at a port as the MAC sees it: bytes from the destination address onward without the FCS, and what the
line reported (R484). -/
structure RxFrame where
  bytes : List Byte
  fcsBad : Bool
  fecUnc : Nat
  fecCorr : Nat
deriving DecidableEq, Repr

/-- The Cragil header (R522) with its payload: data bytes, or one whole frame (R521). -/
structure Packet where
  version : BitVec 4 := 1
  poison : Bool := false
  first : Bool := true
  last : Bool := true
  retx : Bool := false
  op : BitVec 8 := 0
  cls : BitVec 3 := 0
  ttl : BitVec 8 := 64
  srcPkg : BitVec 12 := 0
  dstPkg : BitVec 12 := 0
  srcPart : BitVec 10 := 0
  dstPart : BitVec 10 := 0
  srcQp : BitVec 16 := 0
  dstQp : BitVec 16 := 0
  psn : BitVec 32 := 0
  epoch : BitVec 32 := 0
  key : BitVec 48 := 0
  kgen : BitVec 16 := 0
  win : BitVec 8 := 0
  status : BitVec 8 := 0
  len : BitVec 16 := 0
  addr : Word := 0
  aux : BitVec 32 := 0
  opnd0 : Word := 0
  opnd1 : Word := 0
  frame : Option Frame := none
  bytes : List Byte := []
deriving DecidableEq, Repr

/-- A PLDM monitoring and control request (R622): a sensor read, an effecter write (GPIO n, R769), the power
envelope or a /ret register (class C1), or the acknowledgement of platform events (R663). -/
inductive PldmReq where
  | readSensor (n : Nat)
  | setGpio (n : Fin 16) (out level : Bool)
  | writeReg (off : Nat) (v : Word)
  | readEvents
  | readLog (r : Nat)
  | power (cmd : BitVec 4)
  | dumpWfg
deriving DecidableEq, Repr

/-- A firmware image's manifest as R629 and R631 give it, with the outcome of its component digests. -/
structure Image where
  manifest : List Byte
  signature : List Byte
  key : List Byte
  slot : Fin 4
  svn : Nat
  version : Word
  componentsMatch : Bool
  revoke : BitVec 4
  commitSvn : Bool
  components : List (List Byte)
deriving DecidableEq, Repr

/-- A debug token (R637): the signing key and slot, the serial and the nonce it names, and its signature. -/
structure DebugToken where
  slot : Fin 4
  key : List Byte
  serial : Word
  nonce : BitVec 32
  signature : List Byte
deriving DecidableEq, Repr

/-- Why a core is in migrate class (R641), with the bucket source for a bucket overflow. -/
inductive MigrateWhy where
  | arith
  | sram (source : Nat)
deriving DecidableEq, Repr

/-- What ends Idle (R688). -/
inductive IdleWake where
  | frame
  | pcie
  | interrupt
  | mgmt
  | wakeEvent
deriving DecidableEq, Repr

/-- The wake sources of AON_PWR_STS.WAKE_SRC (15_power_time_reset.md). -/
inductive WakeSrc where
  | command
  | pattern
  | wakeN
  | alarm
  | mgmt
  | mainGood
  | resetN
deriving DecidableEq, Repr

/-- How the POWER stage ends (R709, R713): all well, a rail not good, a PLL not locked. -/
inductive RailResult where
  | ok
  | rail
  | pll
deriving DecidableEq, Repr

/-- What the SPD hub of a DDR5 module reports (R33, R340, R434, R727). -/
structure Spd where
  mrdimm : Bool
  gib : Nat
  speed : Nat
  ecc : Bool
  serial : Word
deriving DecidableEq, Repr

/-- An IEEE 1149.1 instruction on the JTAG pins (R637, R780): boundary scan, or a private instruction. -/
inductive JtagInstr where
  | bypass
  | boundary (ir : Nat)
  | priv (ir : Nat)
deriving DecidableEq, Repr

/-- The commands: one constructor per row of spec/opcode_table.json. -/
inductive Instr where
  /-- R16: A write to a register field that has no behaviour of its own sets or clears the field according to its access code. -/
  | registerWrite (src : Src) (off : Nat) (size : Nat) (v : Word)
  /-- R40: A host-core access to the physical map is served, or raises an access-fault exception when the address is unmapped or unpopulated. -/
  | hostMemoryAccess (hart : Fin 32) (a : HostAccess)
  /-- R62: A write to PKG_NUMBER sets the package identifier; while a queue pair is open, the change takes effect only at the next warm reset. -/
  | pkgNumberWrite (src : Src) (v : Word)
  /-- R444: A UCIe module enters retraining and holds its outstanding writes and reads in its retry buffer. -/
  | ucieRetrainStart (u : Nat)
  /-- R444: A module that retrains within 1 ms replays its retry buffer in the original order and resumes. -/
  | ucieRetrainDone (u : Nat)
  /-- R27: A host-group module that has not retrained within 1 ms is removed from its group, and its retry buffer is replayed on the lowest-numbered remaining module. -/
  | ucieRetrainTimeout (u : Nat)
  /-- R126: CORE_CTX_CMD BIND_FG checks a stream descriptor and binds it to the foreground slots of its gang, clearing slots of another partition first. -/
  | bindFg (src : Src) (die : Fin 2) (ctx : BitVec 16)
  /-- R126: CORE_CTX_CMD BIND_BF checks a stream descriptor and binds it to the backfill slots of its gang, clearing the reserved quarter for another partition. -/
  | bindBf (src : Src) (die : Fin 2) (ctx : BitVec 16)
  /-- R129: CORE_CTX_CMD UNBIND frees an ended, faulted or aborted stream's slots and context, aborting it first if it is still bound. -/
  | unbind (src : Src) (die : Fin 2) (ctx : BitVec 16)
  /-- R130: CORE_CTX_CMD ABORT stops every member at its next instruction boundary and flushes the stream's queued commands. -/
  | abort (src : Src) (die : Fin 2) (ctx : BitVec 16)
  /-- R130: Once the aborted stream's issued instructions have completed, STATUS becomes 0x01 and STATE 0x4, or the stream ends faulted. -/
  | abortComplete (ctx : BitVec 16)
  /-- R134: A doorbell write advances the TAIL of a bound stream of the page's partition, or is ignored and counted. -/
  | prtDoorbell (page : BitVec 10) (v : Word)
  /-- R135: A PRT_SIGNAL write adds to a sync object owned by the page's partition, or is ignored and counted. -/
  | prtSignal (page : BitVec 10) (v : Word)
  /-- R132: A member fetches the instruction words at its fetch index from the ring while the index differs from TAIL. -/
  | instructionFetch (m : Member)
  /-- R145: SEQ.NOP does nothing. -/
  | seqNop (m : Member) (w : Word)
  /-- R151: SEQ.END stops the member from fetching. -/
  | seqEnd (m : Member) (w : Word)
  /-- R151: When every member has ended and all instructions have completed, STATE becomes 0x2 and the completion sync object is signalled. -/
  | streamEnd (ctx : BitVec 16)
  /-- R147: SEQ.LOOP starts a counted loop over the following body words. -/
  | seqLoop (m : Member) (w : Word)
  /-- R149: SEQ.TAG sets the member's layer and operator tags. -/
  | seqTag (m : Member) (w : Word)
  /-- R161: SEQ.FENCE waits until the member's earlier instructions of the selected scopes have completed. -/
  | seqFence (m : Member) (w : Word)
  /-- R150: SEQ.SEED sets the member's stream seed to its extension word. -/
  | seqSeed (m : Member) (w x : Word)
  /-- R146: SEQ.SCALAR performs a scalar function on the member's scalar registers. -/
  | seqScalar (m : Member) (w x : Word)
  /-- R148: SEQ.MASK sets the low n bits of a mask register and clears the rest. -/
  | seqMask (m : Member) (w : Word)
  /-- R155: SYNC.WAIT waits until the sync object's counter satisfies the wait for VALUE. -/
  | syncWait (m : Member) (w x : Word)
  /-- R155: SYNC.SIGNAL signals VALUE to a sync object, covering local writes. -/
  | syncSignal (m : Member) (w x : Word)
  /-- R155: SYNC.ARRIVE signals 1, covering local writes, and then waits for VALUE. -/
  | syncArrive (m : Member) (w x : Word)
  /-- R155: SYNC.SET sets the counter to VALUE once earlier writes are visible, and wakes satisfied waiters. -/
  | syncSet (m : Member) (w x : Word)
  /-- R155: SYNC.SIGNAL.R signals VALUE with remote coverage. -/
  | syncSignalR (m : Member) (w x : Word)
  /-- R155: SYNC.ARRIVE.R signals 1 with remote coverage and then waits for VALUE. -/
  | syncArriveR (m : Member) (w x : Word)
  /-- R153: A pending signal is added to its counter once the covered writes are visible, and satisfied waiters wake. -/
  | syncSignalApply (n : Nat)
  /-- R156: A sync wait still unsatisfied when WAIT_LIMIT elapses faults with cause 0x07. -/
  | waitLimitExpiry (m : Member)
  /-- R157: A write to CORE_SYNC_OWN assigns an object, resets its counter to 0, and faults every waiting member with cause 0x02. -/
  | coreSyncOwnWrite (src : Src) (obj : BitVec 14) (v : Word)
  /-- R164: A write to CORE_BF_CTRL sets THRESH and, only while neither slot is bound, BF_EN, zeroing the reserved quarter on enable. -/
  | coreBfCtrlWrite (src : Src) (die : Fin 2) (p : Fin 20) (v : Word)
  /-- R166: When the foreground's wait passes the threshold and a backfill context is ready, the core switches to the backfill slot. -/
  | backfillSwitch (die : Fin 2) (core : Fin 16)
  /-- R167: A bound backfill context runs without a threshold once the foreground has ended, faulted or is unbound. -/
  | backfillRunIdle (die : Fin 2) (core : Fin 16)
  /-- R168: When the foreground's wait is satisfied, the core returns to the foreground at the backfill's next instruction boundary. -/
  | foregroundReturn (die : Fin 2) (core : Fin 16)
  /-- R171: An instruction raises an error reported to the stream, and the member issues nothing further. -/
  | streamFault (m : Member) (cause : BitVec 8)
  /-- R173: Once all members have stopped, the package writes the fault fields, sets STATE 0x3, records CORE_FAULT and raises the stream-fault interrupt. -/
  | streamFaultRecord (ctx : BitVec 16)
  /-- R185: MAT.LDS loads, converts and distributes a stationary tile into the underpainting registers of all four arrays, with checksum sums. -/
  | matLds (m : Member) (w : Word)
  /-- R192: The underpainting set and checksum values of a load become ready. -/
  | underpaintingReady (m : Member)
  /-- R186: MAT.SWP exchanges the visible and underpainting sets at the row boundary after earlier streams. -/
  | matSwp (m : Member) (w : Word)
  /-- R219: MAT.STR streams activation tiles through the selected arrays into accumulator tiles. -/
  | matStr (m : Member) (w : Word)
  /-- R206: MAT.DRN drains accumulator tiles through the varnish stage, with scale, bias, statistics, masking, conversion and the checksum check. -/
  | matDrn (m : Member) (w x : Word)
  /-- R201: MAT.SLOT release frees the selected accumulator slots. -/
  | matSlotRelease (m : Member) (w : Word)
  /-- R201: MAT.SLOT persist makes live slots persistent. -/
  | matSlotPersist (m : Member) (w : Word)
  /-- R201: MAT.SLOT unpersist returns persistent slots to live. -/
  | matSlotUnpersist (m : Member) (w : Word)
  /-- R234: VEC.ADD adds two sources element-wise. -/
  | vecAdd (m : Member) (w x : Word)
  /-- R234: VEC.SUB subtracts two sources element-wise. -/
  | vecSub (m : Member) (w x : Word)
  /-- R234: VEC.MUL multiplies two sources element-wise. -/
  | vecMul (m : Member) (w x : Word)
  /-- R234: VEC.FMA computes A x B + C with one rounding. -/
  | vecFma (m : Member) (w x : Word)
  /-- R235: VEC.MIN returns the smaller operand per element. -/
  | vecMin (m : Member) (w x : Word)
  /-- R235: VEC.MAX returns the larger operand per element. -/
  | vecMax (m : Member) (w x : Word)
  /-- R235: VEC.ABS clears the sign bit per element. -/
  | vecAbs (m : Member) (w x : Word)
  /-- R235: VEC.NEG inverts the sign bit per element. -/
  | vecNeg (m : Member) (w x : Word)
  /-- R238: VEC.RCP computes correctly rounded reciprocals. -/
  | vecRcp (m : Member) (w x : Word)
  /-- R238: VEC.RSQ computes correctly rounded reciprocal square roots. -/
  | vecRsq (m : Member) (w x : Word)
  /-- R239: VEC.EXP computes e to the power x. -/
  | vecExp (m : Member) (w x : Word)
  /-- R239: VEC.LOG computes the natural logarithm. -/
  | vecLog (m : Member) (w x : Word)
  /-- R239: VEC.TANH computes the hyperbolic tangent. -/
  | vecTanh (m : Member) (w x : Word)
  /-- R248: VEC.SEL selects A or B per element by C. -/
  | vecSel (m : Member) (w x : Word)
  /-- R246: VEC.CMP compares A with B and delivers a tile or a mask register. -/
  | vecCmp (m : Member) (w x : Word)
  /-- R241: VEC.CVT converts tiles between formats, including expansion and MX quantization. -/
  | vecCvt (m : Member) (w x : Word)
  /-- R256: VEC.EXPAND fills rows or columns of a tile from a vector. -/
  | vecExpand (m : Member) (w x : Word)
  /-- R252: VEC.NORM normalises a tile with stored row statistics. -/
  | vecNorm (m : Member) (w x : Word)
  /-- R249: VEC.MOP combines mask registers. -/
  | vecMop (m : Member) (w : Word)
  /-- R261: RED.RDC reduces a tile by row, column or whole with a function, optionally combining with stored results. -/
  | redRdc (m : Member) (w : Word)
  /-- R264: RED.ADD adds a source tile into a destination tile. -/
  | redAdd (m : Member) (w : Word)
  /-- R266: RED.ARM arms a landing entry over translated frames and writes its record. -/
  | redArm (m : Member) (w x : Word)
  /-- R276: RED.PUSH sends tiles as contributions to a store on the same die. -/
  | redPush (m : Member) (w : Word)
  /-- R274: RED.CLS closes an armed landing, zero-filling uncontributed tiles under INIT and signalling. -/
  | redCls (m : Member) (w : Word)
  /-- R269: An arriving tile contribution is added to a matching landing, refused, or applied as a tile atomic add. -/
  | tileArrival (a : Arrival)
  /-- R322: MOVE.TILE converts or copies consecutive tiles between locations. -/
  | moveTile (m : Member) (w : Word)
  /-- R323: MOVE.GATHER builds a tile from indexed rows of frames. -/
  | moveGather (m : Member) (w : Word)
  /-- R308: MOVE.AFN with REL 0 waits until an object is Fast at a version. -/
  | moveAfn (m : Member) (w : Word)
  /-- R324: MOVE.AFN with REL 1 releases the member's redirect entry for an object. -/
  | moveAfnRelease (m : Member) (w : Word)
  /-- R310: A read-through fence still unsatisfied at its deadline completes by read-through with a redirect entry, or faults if none is free. -/
  | afnDeadlineExpiry (m : Member)
  /-- R317: MOVE.QSEND sends frames on a stage queue, each taking one credit. -/
  | moveQsend (m : Member) (w : Word)
  /-- R319: MOVE.QPOP copies the oldest segment frames out and frees their slots. -/
  | moveQpop (m : Member) (w : Word)
  /-- R318: A stage-queue frame arrives and is placed in the segment or ring, signalling SYNC when it enters the segment. -/
  | sqFrameArrival (die : Fin 2) (q : Fin 64) (f : Frame)
  /-- R319: The receiver returns credits for freed slots, 1 µs after a free or at every eighth free. -/
  | sqCreditReturn (die : Fin 2) (q : Fin 64)
  /-- R317: Returned credits arrive at the sender end and release waiting frames. -/
  | sqCreditArrival (die : Fin 2) (q : Fin 64) (n : Nat)
  /-- R296: CREATE checks an object descriptor, charges the DDR5 quota and makes the object valid and Slow. -/
  | create (src : Src) (obj : BitVec 32)
  /-- R296: DESTROY credits the charge and invalidates an unclaimed Slow object. -/
  | destroy (src : Src) (obj : BitVec 32)
  /-- R299: PROMOTE adds a claim and makes the object Fast at a version, copying home to fast if needed. -/
  | promote (src : Src) (part : BitVec 10) (obj : BitVec 32)
  /-- R299: EVICT removes a partition's claim, starting Falling and writeback on the last claim. -/
  | evict (src : Src) (part : BitVec 10) (obj : BitVec 32)
  /-- R299: RECLAIM returns a Falling object with released charge and no waiters to Slow. -/
  | reclaim (src : Src) (obj : BitVec 32)
  /-- R306: CHARGE atomically charges a partition's quota of a tier. -/
  | charge (src : Src) (part : BitVec 10) (ddr : Bool)
  /-- R306: CREDIT subtracts bytes from a partition's quota usage. -/
  | credit (src : Src) (part : BitVec 10) (ddr : Bool)
  /-- R316: SQOPEN validates a stage-queue end and sets sender credits. -/
  | sqopen (src : Src) (qend : BitVec 7) (peerSlots : Nat)
  /-- R316: SQCLOSE closes a stage-queue end, flushing or discarding its frames. -/
  | sqclose (src : Src) (qend : BitVec 7)
  /-- R299: A Rising copy completes, making the object Fast or Falling, completing pending promotions and waking fences. -/
  | residencyCopyComplete (obj : BitVec 32)
  /-- R299: A writeback of a Falling object completes, clearing WBP and releasing the charge when the conditions hold. -/
  | writebackComplete (obj : BitVec 32)
  /-- R327: XFER.COPY queues a copy between tiers or PCIe on a copy engine. -/
  | xferCopy (m : Member) (w x : Word)
  /-- R329: XFER.COPYI writes inline payload bytes to an address. -/
  | xferCopyi (m : Member) (w : Word) (pl : List Word)
  /-- R330: XFER.GESSO fills whole frames with zero data and valid check symbols. -/
  | xferGesso (m : Member) (w x : Word)
  /-- R337: XFER.PLACE PROMOTE issues a promotion from a stream. -/
  | xferPlacePromote (m : Member) (w : Word)
  /-- R337: XFER.PLACE EVICT issues an eviction from a stream. -/
  | xferPlaceEvict (m : Member) (w : Word)
  /-- R332: A copy-engine command completes, writing its flag, signal and completion record, or faulting the stream. -/
  | copyComplete (die : Fin 2) (eng : Fin 8)
  /-- R343: A line read checks inner CRCs and corrects the whole frame when any line fails. -/
  | memoryLineRead (pa : Nat) (lines : Nat) (flips : List Nat)
  /-- R348: A whole-frame read computes syndromes and corrects or poisons the frame. -/
  | memoryFrameRead (pa : Nat) (flips : List Nat)
  /-- R351: A whole-frame write stores the frame with fresh codes and seal, discarding any open merge entry. -/
  | wholeFrameWrite (pa : Nat) (f : Frame)
  /-- R355: A sub-frame write enters the merge buffer, opening an entry or closing the oldest when all are open. -/
  | subFrameWrite (pa : Nat) (bytes : List Byte)
  /-- R358: An entry open for the merge window is closed by read-modify-write. -/
  | mergeWindowExpiry (ctl : Fin 16) (frame : Nat)
  /-- R365: At each leak instant every bucket above 0 loses 1. -/
  | bucketLeak
  /-- R365: A write to ECC_BUCKET_CTRL applies pending leaks on a LEAK_MS change and sends an MSI when enabling an interrupt with status set. -/
  | eccBucketCtrlWrite (src : Src) (v : Word)
  /-- R373: The patrol scrubber reads and corrects or poisons the next usable frame at its pace. -/
  | scrubFrame (flips : List Nat)
  /-- R375: The SRAM scrubber reads and corrects words of the stores on free bank cycles. -/
  | scrubSram (e : SramError)
  /-- R401: UPD.PROG checks a program block and loads a program slot. -/
  | updProg (m : Member) (w : Word)
  /-- R405: UPD.RUN checks stamps, takes a pin and applies the update program to every weight tile of a group. -/
  | updRun (m : Member) (w x : Word)
  /-- R411: At completion a RUN releases its pin, adds Q, waits for the mirror acknowledgement, signals and writes CSTEP. -/
  | runCommit (m : Member)
  /-- R414: UPD.SNAP copies a field of a group to a global address with stamp v. -/
  | updSnap (m : Member) (w x : Word)
  /-- R408: UPD.UNPIN releases a pin on a group's gradient. -/
  | updUnpin (m : Member) (w : Word)
  /-- R455: A write to a notify entry sets it and fires it at once if its wait is already satisfied. -/
  | hceNotifyCtlWrite (src : Src) (n : BitVec 8) (v : Word)
  /-- R449: HCE_RESTART DRAIN stops copy engines and completes issued host-bound writes, then holds. -/
  | drain (src : Src)
  /-- R449: HCE_RESTART RESTART drains as DRAIN and then resets the host cores. -/
  | restart (src : Src)
  /-- R451: HCE_RESTART ENABLE clears HOLD and DONE and resumes stopped commands. -/
  | enable (src : Src)
  /-- R449: The drain finishes, DONE and HOLD are set, source 4 is sent, and on RESTART the host cores are reset. -/
  | drainComplete (ns : Nat)
  /-- R448: An SBI reset call or a host-core double trap requests a RESTART or DRAIN. -/
  | sbiSystemReset (k : SbiReset)
  /-- R440: A PCIe link going down is contained by DPC and its outstanding copies complete with 0x08. -/
  | pcieLinkDown (port : Fin 4)
  /-- R467: A write changing a lane's role or PHY settings takes the lane out of its state and restarts it. -/
  | fabLaneCfgWrite (src : Src) (n : Fin 49) (v : Word)
  /-- R458: Clause 73 auto-negotiation completes and the lane enters TRAIN. -/
  | laneNegDone (n : Fin 49) (peerRates : BitVec 3)
  /-- R475: Link training completes and the lane enters ALIGN. -/
  | laneTrainDone (n : Fin 49)
  /-- R475: PCS alignment and FEC lock complete and the lane enters CHECK or UP. -/
  | laneAlignDone (n : Fin 49)
  /-- R475: A quick restart with stored coefficients completes and the lane enters ALIGN. -/
  | laneQuickDone (n : Fin 49)
  /-- R475: A lane state exceeds its time limit and the attempt fails. -/
  | laneStateTimeout (n : Fin 49)
  /-- R475: After 100 µs in HOLD the lane enters QUICK. -/
  | holdExpiry (n : Fin 49)
  /-- R468: Every hello interval the lane sends a hello frame in queue 7. -/
  | helloSend (n : Fin 49)
  /-- R470: A received hello is checked for wiring and moves the lane to MISWIRED, UP, or out of UP. -/
  | helloReceive (n : Fin 49) (h : Hello)
  /-- R478: HELLO_MISS intervals pass without a hello and the lane declares itself lost. -/
  | helloMissExpiry (n : Fin 49)
  /-- R478: Loss of PCS alignment, FEC lock or a remote fault takes the lane out of UP. -/
  | lanePcsLoss (n : Fin 49) (aligned : Bool)
  /-- R484: A received frame is classified and delivered to the transport, hello logic, receive ring or dropped. -/
  | frameReceive (n : Fin 49) (f : RxFrame)
  /-- R495: A pause time elapses and the paused queues may transmit again. -/
  | pauseExpiry (n : Fin 49) (prio : Fin 8)
  /-- R496: While occupancy stays above XON, the pause frame is repeated every half QUANTA. -/
  | pfcRefresh (n : Fin 49) (prio : Fin 8)
  /-- R496: Occupancy falling below XON sends quanta 0. -/
  | pfcXonSend (n : Fin 49) (prio : Fin 8)
  /-- R499: A priority paused for WD ms starts discarding its queue and posts an event. -/
  | pfcWatchdogExpiry (n : Fin 49) (prio : Fin 8)
  /-- R489: At a frame boundary the MAC starts the oldest frame of the highest unpaused queue. -/
  | frameTransmit (n : Fin 49)
  /-- R507: A write advancing the transmit-ring PROD hands new frames to the package. -/
  | fabTxrIdxWrite (src : Src) (v : Word)
  /-- R516: A write setting a ring's EN zeroes both indices; BASE or LOG2 writes while enabled are ignored. -/
  | fabRingCfgWrite (src : Src) (tx : Bool) (v : Word)
  /-- R538: A WRITE packet is taken in PSN order, checked and applied. -/
  | cragilWrite (p : Packet)
  /-- R558: A WRITE with signal packet is applied and its last packet signals ROBJ after visibility. -/
  | cragilWriteSignal (p : Packet)
  /-- R559: A READ request is checked and answered with READ responses. -/
  | cragilReadRequest (p : Packet)
  /-- R559: A READ response writes its data to the local destination and completes the read at the last. -/
  | cragilReadResponse (p : Packet)
  /-- R561: An ATOMIC packet is applied at the home of its line and answered with the old value. -/
  | cragilAtomic (p : Packet)
  /-- R560: An ATOMIC response delivers the old value and completes the RATOM. -/
  | cragilAtomicResponse (p : Packet)
  /-- R562: A TILE_ADD packet is treated as an arriving contribution at the target. -/
  | cragilTileAdd (p : Packet)
  /-- R541: An ACK advances UNA, marks stored packets and completes covered commands. -/
  | cragilAck (p : Packet)
  /-- R567: A NAK completes the refused command and moves the queue pair to the error state. -/
  | cragilNak (p : Packet)
  /-- R544: An RNR holds the queue pair's sending from the refused PSN for the back-off. -/
  | cragilRnr (p : Packet)
  /-- R544: The RNR back-off ends and the sender resends from the refused PSN. -/
  | rnrBackoffExpiry (qp : BitVec 16)
  /-- R526: A packet for another package is forwarded with TTL decremented, or dropped. -/
  | transitForward (die : Fin 2) (p : Packet)
  /-- R534: A queue-pair context fetch completes and buffered packets are taken in PSN order. -/
  | contextFetchComplete (qp : BitVec 16)
  /-- R541: 2 µs after an unacknowledged applied packet, the receiver sends an ACK. -/
  | ackTimerExpiry (qp : BitVec 16)
  /-- R542: UNA unmoved for RTO resends unacknowledged packets and may put the queue pair in error with 0x0D. -/
  | rtoExpiry (qp : BitVec 16)
  /-- R530: XPT_QP_CMD OPEN moves a closed queue pair to active. -/
  | qpOpen (src : Src) (qp : BitVec 16)
  /-- R530: XPT_QP_CMD CLOSE flushes and closes an active or errored queue pair. -/
  | qpClose (src : Src) (qp : BitVec 16)
  /-- R530: XPT_QP_CMD ERROR moves an active queue pair to the error state with 0x01. -/
  | qpErrorCmd (src : Src) (qp : BitVec 16)
  /-- R548: XPT_WIN_CMD LOAD checks a window entry and makes it valid in every cached copy. -/
  | winLoad (src : Src) (part : BitVec 10) (win : BitVec 8)
  /-- R550: XPT_WIN_CMD REVOKE clears VALID, sets RVK and fixes the revocation point. -/
  | winRevoke (src : Src) (part : BitVec 10) (win : BitVec 8)
  /-- R550: A revocation completes once every write admitted before its point has reached memory, clearing BUSY. -/
  | revokeComplete
  /-- R546: A write changing a partition's KEY advances GEN and revokes all its windows. -/
  | xptPkeyWrite (src : Src) (part : BitVec 10) (v : Word)
  /-- R557: XFER.RWRITE writes bytes or frames to a global address. -/
  | xferRwrite (m : Member) (w x : Word)
  /-- R557: XFER.RWRITEI writes inline payload bytes to a global address. -/
  | xferRwritei (m : Member) (w x : Word) (pl : List Word)
  /-- R559: XFER.RREAD reads bytes or frames from a global address. -/
  | xferRread (m : Member) (w x : Word)
  /-- R560: XFER.RATOM applies an atomic at a global address. -/
  | xferRatom (m : Member) (w x : Word)
  /-- R562: XFER.RTADD sends tiles as tile adds to a global address. -/
  | xferRtadd (m : Member) (w x : Word)
  /-- R570: A host-core load through an aperture slot becomes an RREAD. -/
  | apertureLoad (hart : Fin 32) (addr : Nat) (size : Nat)
  /-- R570: A host-core store through an aperture slot becomes a posted write. -/
  | apertureStore (hart : Fin 32) (addr : Nat) (data : List Byte)
  /-- R570: An AMOADD through an aperture slot becomes a fetch-add. -/
  | apertureAmo (hart : Fin 32) (addr : Nat) (op : HostOp) (size : Nat) (v : Word)
  /-- R582: XFER.COLL starts a collective, arming the landing and sending contributions. -/
  | xferColl (m : Member) (w : Word)
  /-- R583: A reduce or gather step completes and, at the last step, the collective writes its results and signals. -/
  | collStepComplete (id : Nat)
  /-- R587: At the step deadline the engine cuts the step to the admitted set. -/
  | collDeadlineExpiry (id : Nat)
  /-- R587: GRACE after a cut the landing is closed. -/
  | collGraceExpiry (id : Nat)
  /-- R591: A COL_GRANT packet lets a sender send to an owner under fixed order. -/
  | colGrant (p : Packet)
  /-- R593: XFER.PERM sends the member's entries of a permute table. -/
  | xferPerm (m : Member) (w : Word)
  /-- R593: A COL_PDONE packet is counted, and the PERM completes when all live members have sent one. -/
  | colPdone (p : Packet)
  /-- R595: A mirror-write packet is translated through the mirror map, written and acknowledged, or refused with NAK 0x02. -/
  | colMirrorWrite (p : Packet)
  /-- R595: A mirror acknowledgement releases RUNs waiting for their frames. -/
  | colMirrorAck (p : Packet)
  /-- R596: Writing RESEND resends every unacknowledged mirror frame. -/
  | mirrorResend (src : Src)
  /-- R598: Clearing EN makes the pairing ALONE and releases mirror waiters; setting it from ALONE pairs again. -/
  | colMirrorEnWrite (src : Src) (en : Bool)
  /-- R611: Clearing COL_JOB EN ends the job's collectives with 0x01 and discards held contributions. -/
  | colJobDisable (src : Src) (j : Fin 16)
  /-- R599: With every lane to a neighbour down for LOSS_HOLD, the package declares the neighbour lost. -/
  | lossHoldExpiry (pkg : BitVec 12)
  /-- R602: A loss notice is accepted, forwarded, ignored as duplicate, or breaks the line. -/
  | colLossNotice (p : Packet)
  /-- R616: PRT_CMD ENABLE enables a partition. -/
  | prtEnable (src : Src) (part : BitVec 10)
  /-- R619: PRT_CMD TEARDOWN aborts, flushes, revokes, clears and invalidates a partition. -/
  | prtTeardown (src : Src) (part : BitVec 10)
  /-- R617: PRT_CMD INVAL invalidates a partition's translations over a range. -/
  | prtInval (src : Src) (part : BitVec 10)
  /-- R624: A write of SEC_POLICY by a permitted channel changes channel class permissions and extends measurement 6. -/
  | secPolicyWrite (ch : Channel) (v : Word)
  /-- R625: A request sets or replaces the owner root key. -/
  | setOwnerKey (ch : Channel) (key : List Byte) (cur : List Byte) (sig : List Byte)
  /-- R622: A PLDM monitoring and control request reads sensors or sets effecters. -/
  | pldmPlatformRequest (ch : Channel) (r : PldmReq)
  /-- R627: A PLDM firmware update writes the non-running image bank. -/
  | pldmFirmwareUpdate (ch : Channel) (img : Option Image)
  /-- R632: A firmware activation makes the staged image take effect at the next start. -/
  | firmwareActivate (ch : Channel)
  /-- R623: A TLS connection to the service-port management endpoint is authenticated against the owner root key. -/
  | tlsConnect (version : BitVec 16) (suite : BitVec 16) (scheme : BitVec 16) (chain : List (List Byte))
  /-- R636: SPDM GET_VERSION returns supported versions. -/
  | getVersion (ch : Channel)
  /-- R636: SPDM GET_CAPABILITIES returns responder capabilities. -/
  | getCapabilities (ch : Channel)
  /-- R636: SPDM NEGOTIATE_ALGORITHMS selects Ed25519 and SHA-512. -/
  | negotiateAlgorithms (ch : Channel) (asym : Nat) (hash : Nat)
  /-- R636: SPDM GET_DIGESTS returns certificate chain digests. -/
  | getDigests (ch : Channel)
  /-- R636: SPDM GET_CERTIFICATE returns the slot-0 chain. -/
  | getCertificate (ch : Channel) (slot : Nat) (offset len : Nat)
  /-- R636: SPDM CHALLENGE returns a response signed with the alias key. -/
  | challenge (ch : Channel) (slot : Nat) (nonce : List Byte)
  /-- R636: SPDM GET_MEASUREMENTS returns signed measurement registers. -/
  | getMeasurements (ch : Channel) (index : Nat) (sign : Bool) (nonce : List Byte)
  /-- R637: A signed debug token opens private JTAG instructions, sets DEBUG and extends measurement 7. -/
  | debugUnlock (ch : Channel) (t : DebugToken)
  /-- R722: Darsol command GET_IDENTITY returns the identity registers. -/
  | getIdentity (ch : Channel)
  /-- R721: Darsol command GET_START_REPORT returns the start report and may subscribe to START_STAGE. -/
  | getStartReport (ch : Channel) (eid : BitVec 16) (byte0 : Byte)
  /-- R643: A core in migrate class stops, drains, has its state copied to a spare and resumes there. -/
  | coreMigrate (die : Fin 2) (p : Fin 20) (why : MigrateWhy)
  /-- R647: A migration whose drain exceeds DRAIN_LIMIT becomes a core loss. -/
  | migrationDrainTimeout (die : Fin 2) (p : Fin 20)
  /-- R640: A parity or uncorrectable slot-state error in a core is detected as a core-loss fault. -/
  | coreFaultDetect (die : Fin 2) (p : Fin 20) (source : Nat)
  /-- R654: A die-wide state error fences the die's cores, faults streams, errors queue pairs, downs the host link and lanes, and asserts FAULT_N. -/
  | dieFault (die : Fin 2) (struct : Nat) (addr : Nat)
  /-- R655: A control-core watchdog expires and a sibling restarts it, or after three expiries it is fenced. -/
  | watchdogExpiry (die : Fin 3) (cc : Fin 4)
  /-- R660: A write setting the event ring's EN zeroes both indices. -/
  | pkgEvtCfgWrite (src : Src) (v : Word)
  /-- R668: The main input rises and stays valid for 10 ms, so conversion starts and a start begins. -/
  | mainGood
  /-- R669: The main input below 37 V for 20 µs asserts POWER_FAIL_N, stops issue, logs and turns conversion off. -/
  | mainLoss (lowest : Nat)
  /-- R668: The main input above 61 V holds throttle level 12. -/
  | mainOvervoltage (vin : Nat)
  /-- R668: Sustained or severe overvoltage turns conversion off and is handled as main loss. -/
  | mainTrip (vin : Nat)
  /-- R667: The auxiliary input rising from absent starts the always-on domain as a cold power-on. -/
  | auxRise (badA badB : Bool)
  /-- R670: Loss of the auxiliary input turns the main conversion off at once. -/
  | auxLoss
  /-- R672: Every 10 µs the package measures input power and steps the throttle level. -/
  | powerSample (watts : Nat) (over100ms over1ms : Bool)
  /-- R674: A sensor crossing TJ_THROTTLE raises or lowers the throttle level. -/
  | thermalThrottle (sensors : List Nat)
  /-- R675: A sensor at 115 °C asserts THERMTRIP_N, turns conversion off and logs. -/
  | thermalTrip (sensor : Nat) (quarters : Nat)
  /-- R677: A cluster clock stops 1 µs after it has no issuing context or pending access. -/
  | clusterClockStop (die : Fin 2) (cl : Fin 5)
  /-- R677: An access or issuable context restarts a cluster clock within 200 ns. -/
  | clusterClockStart (die : Fin 2) (cl : Fin 5)
  /-- R678: A supply droop stretches a cluster's clock. -/
  | clockDroop (die : Fin 2) (cl : Fin 5) (cycles : Nat)
  /-- R681: A write adds a signed step to package time everywhere at one instant. -/
  | aonTimeStepWrite (src : Src) (v : Word)
  /-- R685: Writing LOCK clears QUAL. -/
  | timeLock (src : Src)
  /-- R685: One second after loading, QUAL returns to 0. -/
  | qualTimeout
  /-- R686: A PPS rising edge latches package time and sets PPS_EDGE. -/
  | ppsEdge
  /-- R683: Each crystal tick advances COARSE or aligns it to package time. -/
  | crystalTick
  /-- R687: After 20 µs of quiet the package enters Idle and gates its fast clocks. -/
  | idleEnter
  /-- R688: A frame, request, interrupt or wake returns the package to Active within 2 µs. -/
  | idleExit (why : IdleWake)
  /-- R690: AON_PWR_CMD DOZE checks conditions, saves state and powers the compute dies down. -/
  | doze (src : Requester)
  /-- R692: A wake, held access, alarm or management request brings the package out of Doze. -/
  | dozeExit (why : WakeSrc) (us : Nat) (badSave : BitVec 2)
  /-- R695: AON_PWR_CMD SLEEP drains, flushes and powers off all but the always-on domain. -/
  | sleep (src : Requester)
  /-- R697: A wake source during Sleep records WAKE_SRC and starts the package. -/
  | sleepExit (why : WakeSrc)
  /-- R692: AON_PWR_CMD WAKE requests exit from Doze. -/
  | wake (src : Src)
  /-- R697: WAKE_N held low for 1 µs wakes the package. -/
  | wakeNAssert
  /-- R692: Package time or COARSE reaching the alarm wakes the package and clears EN. -/
  | alarmExpiry
  /-- R698: AON_PWR_CMD WARM_RESET with the key resets every die, keeping the retained store. -/
  | warmReset (src : Requester) (key : Byte)
  /-- R700: AON_PWR_CMD FACTORY_RESTORE resets Persistent items, empties logs and warm-resets. -/
  | factoryRestore (src : Requester) (key : Byte)
  /-- R699: RESET_N held low for 1 µs holds the package in warm reset. -/
  | resetAssert
  /-- R699: RESET_N released starts bring-up. -/
  | resetRelease
  /-- R704: Pending Persistent changes are written to the SPI NOR within 1 s. -/
  | persistentNorWrite
  /-- R709: The ROM stage reads fuses, checks the retained store, chooses and verifies an image and takes measurements. -/
  | stageRom (bad : List Nat) (us : Nat)
  /-- R709: The FIRMWARE stage starts control cores, derives the alias key and restores settings. -/
  | stageFirmware (ok : Bool) (us : Nat)
  /-- R709: The POWER stage brings up conversion, rails and PLLs and loads the time base. -/
  | stagePower (r : RailResult) (us : Nat)
  /-- R709: The UCIE stage trains every fitted module. -/
  | stageUcie
  /-- R709: The HBM stage trains every present stack and sets HBM_RUN. -/
  | stageHbm
  /-- R709: The DDR5 stage reads SPD, chooses the channel set and speed and trains channels. -/
  | stageDdr5 (spd : List (Option Spd))
  /-- R729: The COMPUTE stage applies the defect map, builds sparing maps and zeroes stores. -/
  | stageCompute (us : Nat)
  /-- R714: The FABRIC stage copies GROUP4 and starts every lane with a role. -/
  | stageFabric
  /-- R709: The HOST stage trains PCIe, releases the host cores and asserts READY. -/
  | stageHost (ok : Bool) (us : Nat)
  /-- R710: A unit finishes training with pass or fail, and its stage completes when all units have. -/
  | unitTrainingDone (stage : Nat) (u : Nat) (pass : Bool) (cause : Byte)
  /-- R711: A stage that exceeds its limit fails its unfinished units. -/
  | stageTimeout (stage : Nat)
  /-- R728: Writing CLEAR sets every unit state to normal. -/
  | startClear (src : Src)
  /-- R731: PKG_TEST_CMD TEST runs a core or lane test, swapping in a spare or waiting as required. -/
  | test (src : Src) (v : Word)
  /-- R736: PKG_TEST_CMD CALIBRATE calibrates a unit in short pauses. -/
  | calibrate (src : Src) (v : Word)
  /-- R740: PKG_TEST_CMD ABORT ends a waiting or running operation with result 0x5. -/
  | testAbort (src : Src)
  /-- R733: A test or calibration ends, updating defect bits and posting event 0x10. -/
  | testComplete (pass : Bool) (sub : Byte) (us : Nat) (detail : Word)
  /-- R737: Each PERIOD_S or on temperature drift the package calibrates every unit. -/
  | autoCalibration (kind : Nat) (u : Nat)
  /-- R752: Every PERIOD_US each core writes cycle and census sample records. -/
  | counterSample
  /-- R752: Writing SAMPLE makes every core write a sample record now. -/
  | cntCmdSample (src : Src)
  /-- R754: The drain engine empties trace records into the partitions' trace rings. -/
  | traceDrain (die : Fin 2)
  /-- R757: A member waiting longer than HANG_MS triggers assembly of the wait-for graph. -/
  | hangTimeout (m : Member)
  /-- R757: Writing DUMP triggers assembly of the wait-for graph. -/
  | wfgDump (src : Src)
  /-- R760: The assembled graph is written to the dump area and event 0x13 is posted. -/
  | wfgWritten
  /-- R421: A memory request or MSI from a PCIe device is translated by the IOMMU and served coherently in the DDR5 tier, or delivered to an IMSIC. -/
  | pcieDeviceRequest (r : PcieReq)
  /-- R668: The main input falling back to 61.0 V or below ends the hold at throttle level 12 and clears OV. -/
  | overvoltageEnd
  /-- R675: When every die sensor reads below 95 °C, a warm reset that was waiting on temperature proceeds. -/
  | sensorsBelowResetLimit
  /-- R637: An IEEE 1149.1 instruction shifted in on the JTAG pins runs boundary scan at any time, and a private instruction only after an accepted debug unlock. -/
  | jtagInstruction (ir : JtagInstr)
deriving DecidableEq, Repr

end Sys2Proof
end

