-- ==== Sys2Proof/Decode.lean ====
section
/-! DEFINITION. The commands that words spell: no row of spec/opcode_table.json gives bits (a Plynax row's words are its
operands, 03_plynax_programs.md R139), so no word spells a command. -/
namespace Sys2Proof

/-- The command that an `nbits`-bit word spells by the table's bits: none, since the table gives no row any bits. -/
def decodeTableWord (nbits w : Nat) : Option Instr :=
  match nbits, w with
  | _, _ => none

end Sys2Proof
end

