-- ==== Sys2Proof/Machine/Bits.lean ====
section
/-! DEFINITION. Bit fields, little-endian and network byte strings, and the sparse maps the state is made of (00_scope.md R12
to R14). -/
namespace Sys2Proof.Machine

/-- bits(x, hi, lo) of the spec's pseudocode, as a number. -/
def bits (x : Word) (hi lo : Nat) : Nat := (x.toNat >>> lo) % 2 ^ (hi - lo + 1)

/-- Bit `n` of a word. -/
def bit (x : Word) (n : Nat) : Bool := x.getLsbD n

/-- `x` with bits [hi:lo] replaced by the low bits of `v`. -/
def setBits (x : Word) (hi lo v : Nat) : Word :=
  let m : Word := BitVec.ofNat 64 ((2 ^ (hi - lo + 1) - 1) <<< lo)
  (x &&& ~~~m) ||| (BitVec.ofNat 64 (v <<< lo) &&& m)

/-- `x` with bit `n` set or cleared. -/
def setBit (x : Word) (n : Nat) (b : Bool) : Word := setBits x n n (if b then 1 else 0)

/-- sext(x, n) of the spec's pseudocode. -/
def sext (x n : Nat) : Int := if 2 * (x % 2 ^ n) < 2 ^ n then (x % 2 ^ n : Nat) else (x % 2 ^ n : Nat) - (2 ^ n : Nat)

/-- The word of a number, modulo 2^64. -/
def word (n : Nat) : Word := BitVec.ofNat 64 n

/-- A Boolean as 0 or 1. -/
def b2n (b : Bool) : Nat := if b then 1 else 0

/-- A little-endian byte string as a number (R13). -/
def leNat : List Byte → Nat
  | [] => 0
  | b :: r => b.toNat + 256 * leNat r

/-- The first `n` little-endian bytes of a number (R13). -/
def natLe : Nat → Nat → List Byte
  | 0, _ => []
  | n + 1, v => BitVec.ofNat 8 v :: natLe n (v / 256)

/-- A byte string in network order as a number (R14). -/
def beNat (l : List Byte) : Nat := l.foldl (fun a b => 256 * a + b.toNat) 0

/-- `n` bytes of a number in network order (R14). -/
def natBe (n v : Nat) : List Byte := (natLe n v).reverse

/-- The little-endian bytes of 64-bit words. -/
def wordsBytes (ws : List Word) : List Byte := ws.flatMap (fun w => natLe 8 w.toNat)

/-- Word `k` (little-endian) of a byte string; bytes past its end are zero. -/
def wordAt (l : List Byte) (off : Nat) : Word := word (leNat ((l.drop off).take 8))

/-- The byte string cut or zero-padded to `n` bytes. -/
def padTo (n : Nat) (l : List Byte) : List Byte := l.take n ++ List.replicate (n - l.length) 0

/-- The byte string with `new` laid over it from `off`. -/
def overlay (l : List Byte) (off : Nat) (new : List Byte) : List Byte :=
  padTo off l ++ new ++ l.drop (off + new.length)

/-- Cut a list into pieces of `n` elements, at most `fuel` of them. -/
def chunk {α : Type} (n : Nat) : Nat → List α → List (List α)
  | 0, _ => []
  | _ + 1, [] => []
  | f + 1, l => l.take n :: chunk n f (l.drop n)

/-- The elements of a list by index, with a default past the end. -/
def nth {α : Type} (l : List α) (d : α) (i : Nat) : α := (l[i]?).getD d

/-- Replace element `i` of a list; nothing past the end. -/
def setNth {α : Type} : List α → Nat → α → List α
  | [], _, _ => []
  | _ :: r, 0, y => y :: r
  | x :: r, i + 1, y => x :: setNth r i y

/-- Transpose a list of rows into `n` columns. -/
def columns {α : Type} (d : α) (n : Nat) (rows : List (List α)) : List (List α) :=
  (List.range n).map (fun j => rows.map (fun r => nth r d j))

/-- A count field of `w` bits that stops at its maximum. -/
def satAdd (w : Nat) (a b : Nat) : Nat := min (a + b) (2 ^ w - 1)

/-- The numbers below `n` whose bit is set in `m`. -/
def bitsOf (m n : Nat) : List Nat := (List.range n).filter (fun i => m.testBit i)

/-- The number of bits set among the low `n` bits. -/
def popcount (m n : Nat) : Nat := (bitsOf m n).length

/-- The signed 32-bit difference a - b (R154). -/
def diff32 (a b : Nat) : Int := sext ((a + 2 ^ 32 - b % 2 ^ 32) % 2 ^ 32) 32

/-- A sparse map: keys strictly rising, no entry equal to the default. -/
abbrev SMap (α : Type) := List (Nat × α)

/-- The value at a key, `d` where none is listed. -/
def sget {α : Type} (d : α) : SMap α → Nat → α
  | [], _ => d
  | (k, v) :: r, i => if i = k then v else sget d r i

/-- The map without a key. -/
def sdel {α : Type} (m : SMap α) (i : Nat) : SMap α := m.filter (fun p => decide (p.1 ≠ i))

/-- Put an entry in its place. -/
def sput {α : Type} : SMap α → Nat → α → SMap α
  | [], i, v => [(i, v)]
  | (k, w) :: r, i, v => if i < k then (i, v) :: (k, w) :: r else if i = k then (i, v) :: r else (k, w) :: sput r i v

/-- Write a value; writing the default removes the entry, so equal maps are equal data. -/
def sset {α : Type} [DecidableEq α] (d : α) (m : SMap α) (i : Nat) (v : α) : SMap α :=
  if v = d then sdel m i else sput m i v

/-- Is a key listed? -/
def shas {α : Type} (m : SMap α) (i : Nat) : Bool := m.any (fun p => decide (p.1 = i))

end Sys2Proof.Machine
end

