-- ==== Sys2Proof/Machine/Num.lean ====
section
/-! DEFINITION. Numbers the engines hold: element formats, exact values, rounding, conversions with their census categories,
stochastic bits and the adder tree (02_numbers.md). -/
namespace Sys2Proof.Machine

/-- An exact value: (−1)^neg × mag × 2^exp, an infinity, or NaN (R72, R75: NaNs are not told apart). -/
inductive Val where
  | nan
  | inf (neg : Bool)
  | fin (neg : Bool) (mag : Nat) (exp : Int)
deriving DecidableEq, Repr

/-- +0. -/
def Val.zero : Val := .fin false 0 0

/-- The exact value of an integer; zero is +0 (R74). -/
def Val.ofInt (n : Int) : Val := .fin (decide (n < 0)) n.natAbs 0

def Val.isNan : Val → Bool
  | .nan => true
  | _ => false

def Val.isZero : Val → Bool
  | .fin _ 0 _ => true
  | _ => false

def Val.isNeg : Val → Bool
  | .nan => false
  | .inf n => n
  | .fin n _ _ => n

/-- The value with its sign set. -/
def Val.withSign (s : Bool) : Val → Val
  | .nan => .nan
  | .inf _ => .inf s
  | .fin _ m e => .fin s m e

/-- mag × 2^(e − k) as a natural number, bits below dropped. -/
def scaleDown (mag : Nat) (e k : Int) : Nat :=
  if k ≤ e then mag <<< (e - k).toNat else mag >>> (k - e).toNat

/-- floor(log2 |v|) of a non-zero finite value. -/
def ilog (mag : Nat) (e : Int) : Int := (Nat.log2 mag : Int) + e

/-- Compare two finite magnitudes a × 2^e and b × 2^f: is the first smaller? -/
def magLt (a : Nat) (e : Int) (b : Nat) (f : Int) : Bool :=
  let k := min e f
  decide (a <<< (e - k).toNat < b <<< (f - k).toNat)

/-- Order of two values that are not NaN: −1, 0 or 1; the zeros are equal. -/
def Val.cmp (x y : Val) : Int :=
  match x, y with
  | .inf s, .inf t => if s = t then 0 else if s then -1 else 1
  | .inf s, _ => if s then -1 else 1
  | _, .inf t => if t then 1 else -1
  | .fin s a e, .fin t b f =>
    if a = 0 ∧ b = 0 then 0
    else if a = 0 then (if t then 1 else -1)
    else if b = 0 then (if s then -1 else 1)
    else if s ≠ t then (if s then -1 else 1)
    else if magLt a e b f then (if s then 1 else -1)
    else if magLt b f a e then (if s then -1 else 1)
    else 0
  | _, _ => 0

/-- Exact product of two values (R105); 0 × infinity is NaN. -/
def Val.mul (x y : Val) : Val :=
  match x, y with
  | .nan, _ => .nan
  | _, .nan => .nan
  | .inf s, .inf t => .inf (s != t)
  | .inf s, .fin t b _ => if b = 0 then .nan else .inf (s != t)
  | .fin s a _, .inf t => if a = 0 then .nan else .inf (s != t)
  | .fin s a e, .fin t b f => .fin (s != t) (a * b) (e + f)

/-- The signed integer of a finite value in units of 2^k, for k no larger than its exponent. -/
def signedAt (s : Bool) (a : Nat) (e k : Int) : Int :=
  let n : Int := (a <<< (e - k).toNat : Nat)
  if s then -n else n

/-- Exact sum of two values; the sign of an exact zero sum is that of IEEE 754-2019 under round to nearest (R74). -/
def Val.add (x y : Val) : Val :=
  match x, y with
  | .nan, _ => .nan
  | _, .nan => .nan
  | .inf s, .inf t => if s = t then .inf s else .nan
  | .inf s, .fin _ _ _ => .inf s
  | .fin _ _ _, .inf t => .inf t
  | .fin s a e, .fin t b f =>
    let k := min e f
    let n := signedAt s a e k + signedAt t b f k
    if n = 0 then .fin (s && t && decide (a = 0) && decide (b = 0)) 0 0
    else .fin (decide (n < 0)) n.natAbs k

def Val.neg : Val → Val
  | .nan => .nan
  | .inf s => .inf (!s)
  | .fin s a e => .fin (!s) a e

/-- The value times 2^k. -/
def Val.scale (k : Int) : Val → Val
  | .fin s a e => .fin s a (e + k)
  | v => v

/-- The rounding-mode codes of R91; 0b111 is reserved and has no constructor. -/
inductive RM where
  | rne
  | rtz
  | rdn
  | rup
  | sr (w : Nat)
deriving DecidableEq, Repr

/-- R91. -/
def RM.ofCode : Nat → Option RM
  | 0 => some .rne
  | 1 => some .rtz
  | 2 => some .rdn
  | 3 => some .rup
  | 4 => some (.sr 8)
  | 5 => some (.sr 12)
  | 6 => some (.sr 16)
  | _ => none

/-- sr_next of R99, its mixing of the advanced state. -/
def srMix (s : Word) : Word :=
  let z := (s ^^^ (s >>> 30)) * 0xBF58476D1CE4E5B9
  let z := (z ^^^ (z >>> 27)) * 0x94D049BB133111EB
  z ^^^ (z >>> 31)

/-- The `j`-th output (from 0) that a lane draws for an output tile: sr_seed of R101 discards one output, and each call
of R99 adds one constant. -/
def srDraw (seed : Word) (tile lane j : Nat) : Nat :=
  let s := seed + word tile * 0xD1B54A32D192ED03 + word lane * 0x8CB92BA72F3D8DD7
  (srMix (s + word (j + 2) * 0x9E3779B97F4A7C15)).toNat

/-- Round the magnitude mag × 2^e (plus a non-zero part below, when `st`) to whole steps of 2^k, under R92 and R103:
steps, steps before rounding up, and whether bits were lost. -/
def roundSteps (rm : RM) (neg : Bool) (rand : Nat) (mag : Nat) (e : Int) (st : Bool) (k : Int) : Nat × Nat × Bool :=
  let n := scaleDown mag e k
  let rest : Nat := if k ≤ e then 0 else mag % 2 ^ (k - e).toNat
  let half : Nat := if k ≤ e then 1 else 2 ^ (k - e).toNat
  let lost := decide (rest ≠ 0) || st
  let r := match rm with
    | .rne => if half < 2 * rest ∨ (half = 2 * rest ∧ (st ∨ n % 2 = 1)) then n + 1 else n
    | .rtz => n
    | .rdn => if neg && lost then n + 1 else n
    | .rup => if !neg && lost then n + 1 else n
    | .sr w => (scaleDown mag e (k - w) + rand >>> (64 - w)) >>> w
  (r, n, lost)

/-- The layout and limits of a floating-point element format (R71). -/
structure FFmt where
  eb : Nat
  mb : Nat
  bias : Nat
  maxCode : Nat
  infCode : Option Nat
  nanCode : Option Nat
deriving DecidableEq, Repr

def f32 : FFmt := ⟨8, 23, 127, 0x7F7FFFFF, some 0x7F800000, some 0x7FC00000⟩
def bf16 : FFmt := ⟨8, 7, 127, 0x7F7F, some 0x7F80, some 0x7FC0⟩
def f16 : FFmt := ⟨5, 10, 15, 0x7BFF, some 0x7C00, some 0x7E00⟩
def e4m3 : FFmt := ⟨4, 3, 7, 0x7E, none, some 0x7F⟩
def e5m2 : FFmt := ⟨5, 2, 15, 0x7B, some 0x7C, some 0x7E⟩
def e3m2 : FFmt := ⟨3, 2, 3, 0x1F, none, none⟩
def e2m3 : FFmt := ⟨2, 3, 1, 0x1F, none, none⟩
def e2m1 : FFmt := ⟨2, 1, 1, 0x7, none, none⟩

/-- log2 of the minimum subnormal. -/
def FFmt.kmin (f : FFmt) : Int := 1 - (f.bias : Int) - f.mb
/-- log2 of the step at the max finite. -/
def FFmt.kmax (f : FFmt) : Int := f.kmin + (f.maxCode >>> f.mb : Nat) - 1
/-- The number of bits of a code. -/
def FFmt.width (f : FFmt) : Nat := 1 + f.eb + f.mb
/-- The sign bit of a code. -/
def FFmt.signBit (f : FFmt) (neg : Bool) : Nat := if neg then 2 ^ (f.eb + f.mb) else 0

/-- The value of a code (R71, R72). -/
def FFmt.decode (f : FFmt) (code : Nat) : Val :=
  let s := code.testBit (f.eb + f.mb)
  let c := code % 2 ^ (f.eb + f.mb)
  let E := c >>> f.mb
  let M := c % 2 ^ f.mb
  match f.infCode with
  | some i =>
    if c = i then .inf s else if i < c then .nan
    else if E = 0 then .fin s M f.kmin else .fin s (2 ^ f.mb + M) (f.kmin + E - 1)
  | none =>
    if f.nanCode = some c then .nan
    else if E = 0 then .fin s M f.kmin else .fin s (2 ^ f.mb + M) (f.kmin + E - 1)

/-- Census categories of R116 met by one element, as a bit mask. -/
def catMask (inexact away under sub toInf clamp : Bool) : Nat :=
  1 + 2 * b2n inexact + 4 * b2n away + 8 * b2n under + 16 * b2n sub + 32 * b2n toInf + 64 * b2n clamp

/-- What an overflow or an infinity of the given sign delivers, and is it an infinity source: R93, R94; `clampMX` is the
MX element of R89.  Answers the magnitude code and the categories. -/
def FFmt.overflow (f : FFmt) (rm : RM) (sat : Bool) (neg : Bool) : Nat × Nat :=
  let toMax := match rm with
    | .rtz => true
    | .rdn => !neg
    | .rup => neg
    | _ => false
  match f.infCode with
  | some i => if toMax then (f.maxCode, catMask true false false false false false) else (i, catMask true true false false true false)
  | none =>
    if sat then (f.maxCode, catMask true false false false false true)
    else if toMax then (f.maxCode, catMask true false false false false true)
    else (f.nanCode.getD 0, 1 + 128)

/-- Round a value into a format by R92 to R94 and R97, with the census categories of R116: the code and the mask.  `st`
says that the true magnitude lies a non-zero amount above the finite `v`. -/
def FFmt.convert (f : FFmt) (rm : RM) (sat : Bool) (rand : Nat) (v : Val) (st : Bool := false) : Nat × Nat :=
  match v with
  | .nan => (f.nanCode.getD 0, 1 + 256)
  | .inf s =>
    match f.infCode with
    | some i => (i + f.signBit s, 1)
    | none => if sat then (f.maxCode + f.signBit s, catMask true false false false false true) else (f.nanCode.getD 0, 1 + 128)
  | .fin s 0 _ => (f.signBit s, 1)
  | .fin s m e =>
    let k := min (max (ilog m e - f.mb) f.kmin) f.kmax
    let (n, n0, lost) := roundSteps rm s rand m e st k
    let code := ((k - f.kmin).toNat <<< f.mb) + n
    let code := if n = 0 then 0 else code
    if f.maxCode < code then
      let (c, cats) := f.overflow rm sat s
      (if cats.testBit 7 then c else c + f.signBit s, cats)
    else
      (code + f.signBit s, catMask lost (decide (n0 < n)) (decide (n = 0)) (decide (0 < code ∧ code < 2 ^ f.mb)) false false)

/-- R89: round source / 2^X to an MX element format; beyond the max finite it is clamped. -/
def FFmt.mxElem (f : FFmt) (rm : RM) (rand : Nat) (v : Val) : Nat × Nat :=
  match v with
  | .fin s m e =>
    if m = 0 then (f.signBit s, 1)
    else
      let k := min (max (ilog m e - f.mb) f.kmin) f.kmax
      let (n, n0, lost) := roundSteps rm s rand m e false k
      let code := if n = 0 then 0 else ((k - f.kmin).toNat <<< f.mb) + n
      if f.maxCode < code then (f.maxCode + f.signBit s, catMask true false false false false true)
      else (code + f.signBit s, catMask lost (decide (n0 < n)) (decide (n = 0)) (decide (0 < code ∧ code < 2 ^ f.mb)) false false)
  | _ => (0, 1)

/-- Round a value to an integer of `w` bits, saturating (R92, R96, R104): the two's complement code and the categories. -/
def intConvert (w : Nat) (rm : RM) (rand : Nat) (v : Val) (st : Bool := false) : Nat × Nat :=
  let lo : Nat := 2 ^ (w - 1)
  match v with
  | .nan => (0, 1 + 64)
  | .inf s => (if s then lo else lo - 1, catMask true false false false false true)
  | .fin s m e =>
    if m = 0 then (0, 1)
    else
      let (n, n0, lost) := roundSteps rm s rand m e st 0
      if s then
        if lo < n then (lo, catMask true false false false false true)
        else ((2 ^ w - n) % 2 ^ w, catMask lost (decide (n0 < n)) (decide (n = 0)) false false false)
      else if lo - 1 < n then (lo - 1, catMask true false false false false true)
      else (n, catMask lost (decide (n0 < n)) (decide (n = 0)) false false false)

/-- FP32 round to nearest even, the code only. -/
def toF32 (v : Val) (st : Bool := false) : Nat := (f32.convert .rne false 0 v st).1

/-- The value of an FP32 code. -/
def ofF32 (c : Nat) : Val := f32.decode c

/-- Two's complement value of a `w`-bit code (R81). -/
def ofInt (w c : Nat) : Val := Val.ofInt (sext c w)

/-- R106, R107: the sum that a column's adder tree forms in one cycle, truncating each term to a multiple of
2^(e − win) below the largest and rounding to `f` with RNE. -/
def treeSum (f : FFmt) (win : Nat) (terms : List Val) : Nat :=
  let nanT := terms.any Val.isNan
  let pinf := terms.any (fun t => decide (t = .inf false))
  let ninf := terms.any (fun t => decide (t = .inf true))
  if nanT || (pinf && ninf) then f.nanCode.getD 0
  else if pinf then f.infCode.getD 0
  else if ninf then f.infCode.getD 0 + f.signBit true
  else if terms.all Val.isZero then
    (if terms.all (fun t => t.isNeg) && !terms.isEmpty then f.signBit true else 0)
  else
    let e := terms.foldl (fun (a : Option Int) t => match t with
      | .fin _ m x => if m = 0 then a else some (match a with
        | none => ilog m x
        | some y => max y (ilog m x))
      | _ => a) none
    let k : Int := e.getD 0 - win
    let sum : Int := terms.foldl (fun a t => match t with
      | .fin s m x => if s then a - (scaleDown m x k : Int) else a + (scaleDown m x k : Int)
      | _ => a) 0
    if sum = 0 then 0 else (f.convert .rne false 0 (.fin (decide (sum < 0)) sum.natAbs k)).1

/-- Integer square root (floor), by bits from `fuel` downward. -/
def isqrtGo : Nat → Nat → Nat → Nat
  | 0, _, r => r
  | b + 1, n, r => let t := r + 2 ^ b; isqrtGo b n (if t * t ≤ n then t else r)

def isqrt (n : Nat) : Nat := isqrtGo (Nat.log2 n / 2 + 1) n 0

/-- The quotient a × 2^e / (b × 2^f) to 80 bits, with what lies below as sticky: magnitude, exponent, sticky. -/
def quot (a : Nat) (e : Int) (b : Nat) (f : Int) : Nat × Int × Bool :=
  let sh := 80 + Nat.log2 b
  let n := (a <<< sh) / b
  (n, e - f - sh, decide ((a <<< sh) % b ≠ 0))

/-- The square root of a × 2^e to at least 80 bits, with sticky. -/
def sqrtVal (a : Nat) (e : Int) : Nat × Int × Bool :=
  let e' := if e % 2 = 0 then e - 160 else e - 161
  let n := a <<< (e - e').toNat
  let r := isqrt n
  (r, e' / 2, decide (r * r ≠ n))

end Sys2Proof.Machine
end

