-- ==== Sys2Proof/Machine/Fmt.lean ====
section
/-! DEFINITION. Tile formats: shapes, packing, block scales, quantize-on-load, 4-bit expansion and tile conversion
(02_numbers.md R69 to R98; the sideband of 06_tiles_tiers_placement.md R285). -/
namespace Sys2Proof.Machine

/-- The tile formats by their codes (R69). -/
inductive Fmt where
  | fp32 | bf16 | fp16 | e4m3 | e5m2 | mx8e4m3 | mx8e5m2 | mx6e3m2 | mx6e2m3 | mx4 | int8 | int4pal | int4sz | int32 | int16
deriving DecidableEq, Repr

/-- R69, R70: code 0xF names no format. -/
def Fmt.ofCode : Nat → Option Fmt
  | 0 => some .fp32
  | 1 => some .bf16
  | 2 => some .fp16
  | 3 => some .e4m3
  | 4 => some .e5m2
  | 5 => some .mx8e4m3
  | 6 => some .mx8e5m2
  | 7 => some .mx6e3m2
  | 8 => some .mx6e2m3
  | 9 => some .mx4
  | 10 => some .int8
  | 11 => some .int4pal
  | 12 => some .int4sz
  | 13 => some .int32
  | 14 => some .int16
  | _ => none

def Fmt.code : Fmt → Nat
  | .fp32 => 0 | .bf16 => 1 | .fp16 => 2 | .e4m3 => 3 | .e5m2 => 4 | .mx8e4m3 => 5 | .mx8e5m2 => 6 | .mx6e3m2 => 7
  | .mx6e2m3 => 8 | .mx4 => 9 | .int8 => 10 | .int4pal => 11 | .int4sz => 12 | .int32 => 13 | .int16 => 14

/-- Bits per element (R69). -/
def Fmt.bits : Fmt → Nat
  | .fp32 => 32 | .int32 => 32 | .bf16 => 16 | .fp16 => 16 | .int16 => 16 | .mx6e3m2 => 6 | .mx6e2m3 => 6
  | .mx4 => 4 | .int4pal => 4 | .int4sz => 4 | _ => 8

/-- log2 of the tile's K (R69). -/
def Fmt.klog2 : Fmt → Nat
  | .fp32 => 5 | .int32 => 5 | .bf16 => 6 | .fp16 => 6 | .int16 => 6 | .mx4 => 8 | .int4pal => 8 | .int4sz => 8 | _ => 7

/-- The tile's K: elements of one row (R69). -/
def Fmt.k (f : Fmt) : Nat := 2 ^ f.klog2

/-- Bytes of one row (R79). -/
def Fmt.rowBytes (f : Fmt) : Nat := f.k * f.bits / 8

/-- Data bytes of a tile (R69). -/
def Fmt.bytes (f : Fmt) : Nat := 64 * f.rowBytes

/-- The element format of a floating-point or MX tile. -/
def Fmt.flt : Fmt → Option FFmt
  | .fp32 => some f32 | .bf16 => some Machine.bf16 | .fp16 => some f16 | .e4m3 => some Machine.e4m3 | .e5m2 => some Machine.e5m2
  | .mx8e4m3 => some Machine.e4m3 | .mx8e5m2 => some Machine.e5m2 | .mx6e3m2 => some e3m2 | .mx6e2m3 => some e2m3
  | .mx4 => some e2m1 | _ => none

def Fmt.isMx : Fmt → Bool
  | .mx8e4m3 => true | .mx8e5m2 => true | .mx6e3m2 => true | .mx6e2m3 => true | .mx4 => true | _ => false

def Fmt.isInt4 : Fmt → Bool
  | .int4pal => true | .int4sz => true | _ => false

/-- The width of an integer format. -/
def Fmt.intBits : Fmt → Option Nat
  | .int8 => some 8 | .int16 => some 16 | .int32 => some 32 | _ => none

/-- R86: emax of an MX format's elements. -/
def Fmt.emax : Fmt → Int
  | .mx8e4m3 => 8 | .mx8e5m2 => 15 | .mx6e3m2 => 4 | _ => 2

/-- Element codes of a row, from the least significant bit upward (R79). -/
def unpack (b : Nat) : Nat → Nat → List Nat
  | 0, _ => []
  | n + 1, x => x % 2 ^ b :: unpack b n (x / 2 ^ b)

/-- Pack element codes of `b` bits into one number, first element lowest (R79). -/
def packNat (b : Nat) : List Nat → Nat
  | [] => 0
  | x :: r => x % 2 ^ b + 2 ^ b * packNat b r

/-- Element codes of row-major tile data, row by row (R79): `n` groups of eight elements, `b` bytes each. -/
def codesGo (b : Nat) : Nat → List Byte → List Nat
  | 0, _ => []
  | n + 1, l => unpack b 8 (leNat (l.take b)) ++ codesGo b n (l.drop b)

/-- All element codes of a tile, row-major. -/
def Fmt.codes (f : Fmt) (data : List Byte) : List Nat := codesGo f.bits (64 * f.k / 8) data

/-- Pack codes eight at a time; the data area beyond the format's bytes stays zero (R284). -/
def packGo (b : Nat) : Nat → List Nat → List Byte
  | 0, _ => []
  | n + 1, l => natLe b (packNat b (l.take 8)) ++ packGo b n (l.drop 8)

def Fmt.pack (f : Fmt) (codes : List Nat) : List Byte := padTo 8192 (packGo f.bits (codes.length / 8) codes)

/-- The value of an element code without block scale or expansion. -/
def Fmt.elem (f : Fmt) (c : Nat) : Val :=
  match f.flt with
  | some g => g.decode c
  | none => match f.intBits with
    | some w => ofInt w c
    | none => .fin false c 0

/-- R77, R78: an element under its block scale. -/
def mxVal (f : Fmt) (x : Nat) (c : Nat) : Val :=
  if x = 0xFF then .nan else (f.elem c).scale ((x : Int) - 127)

/-- R83: expansion of code q through the palette, to BF16, E4M3 or E5M2; R84: through scale and zero point.  The exact
source value of the element. -/
def int4Val (f : Fmt) (side : List Byte) (r q : Nat) : Val :=
  let half (o : Nat) : Nat := leNat ((side.drop o).take 2)
  match f with
  | .int4pal => bf16.decode (half (2 * q))
  | _ =>
    let z := ((side.drop (128 + r / 2)).headD 0).toNat
    let z := if r % 2 = 0 then z % 16 else z / 16
    (bf16.decode (half (2 * r))).mul (.ofInt ((q : Int) - z))

/-- The exact values of a tile in row-major order, block scales and 4-bit expansion applied. -/
def Fmt.values (f : Fmt) (data side : List Byte) : List Val :=
  let cs := f.codes data
  if f.isMx then
    let blocks := chunk 32 (2 * f.k) cs
    (List.zipWith (fun blk x => blk.map (mxVal f (BitVec.toNat x))) blocks (padTo (2 * f.k) side)).flatten
  else if f.isInt4 then
    let rows := chunk f.k 64 cs
    (List.zipWith (fun r row => row.map (int4Val f side r)) (List.range 64) rows).flatten
  else cs.map f.elem

/-- The rule that chooses a block scale (R86). -/
inductive ScaleRule where
  | floor
  | fit
deriving DecidableEq, Repr

/-- R86: the scale exponent X for a block whose largest magnitude is m × 2^e. -/
def scaleExp (f : Fmt) (rule : ScaleRule) (m : Nat) (e : Int) : Int :=
  match rule with
  | .floor => ilog m e - f.emax
  | .fit =>
    match (f.flt.getD e2m1).decode (f.flt.getD e2m1).maxCode with
    | .fin _ mx kx =>
      let x := ilog m e - ilog mx kx
      if magLt mx (kx + x) m e then x + 1 else x
    | _ => 0

/-- The block-level census categories 9 to 11 and the element masks of one quantized block. -/
structure MxBlock where
  scale : Nat
  codes : List Nat
  cats : List Nat
deriving DecidableEq, Repr

/-- The largest magnitude of a block (R86). -/
def amax (l : List Val) : Nat × Int :=
  l.foldl (fun a v => match v with
    | .fin _ m e => if m = 0 then a else if a.1 = 0 ∨ magLt a.1 a.2 m e then (m, e) else a
    | _ => a) (0, 0)

/-- R85 to R90: quantize one block of 32 values; `rnd i` is element i's draw.  The first category mask counts the
block (bit 9 always, bit 10 when an element was clamped, bit 11 when the scale fell to the floor). -/
def quantBlock (f : Fmt) (rule : ScaleRule) (rm : RM) (rnd : List Nat) (l : List Val) : MxBlock :=
  let g := f.flt.getD e2m1
  if l.any (fun v => match v with | .fin _ _ _ => false | _ => true) then
    ⟨0xFF, l.map (fun _ => 0), 512 :: l.map (fun v => if v.isNan then 1 + 256 else 1 + 128)⟩
  else
    let a := amax l
    if a.1 = 0 then ⟨0, l.map (fun v => g.signBit v.isNeg), 512 :: l.map (fun _ => 1)⟩
    else
      let x := scaleExp f rule a.1 a.2
      let x' := min (max x (-127)) 127
      let es := List.zipWith (fun v r => g.mxElem rm r (v.scale (-x'))) l rnd
      let clamped := es.any (fun p => p.2.testBit 6)
      ⟨(x' + 127).toNat, es.map (·.1), (512 + 1024 * b2n clamped + 2048 * b2n (decide (x < -127))) :: es.map (·.2)⟩

/-- How a conversion is controlled: rounding mode, SAT of R94, the block-scale rule. -/
structure Conv where
  rm : RM
  sat : Bool
  rule : ScaleRule
deriving DecidableEq, Repr

/-- Convert one value to a format that is neither MX nor INT4 (R98): code and categories.  `st` as in `FFmt.convert`. -/
def Fmt.convert1 (f : Fmt) (c : Conv) (rand : Nat) (v : Val) (st : Bool := false) : Nat × Nat :=
  match f.flt with
  | some g => g.convert c.rm c.sat rand v st
  | none => intConvert ((f.intBits).getD 8) c.rm rand v st

/-- A tile written by a conversion unit: data bytes, sideband bytes, and the category mask of every element and block. -/
structure TileOut where
  data : List Byte
  side : List Byte
  cats : List Nat
deriving DecidableEq, Repr

/-- Convert row-major values to a tile of a format (R85 to R98), with one draw per element. -/
def Fmt.encode (f : Fmt) (c : Conv) (vals : List Val) (rnd : List Nat) : TileOut :=
  if f.isMx then
    let n := vals.length / 32 + 1
    let bs := List.zipWith (fun r v => quantBlock f c.rule c.rm r v) (chunk 32 n rnd) (chunk 32 n vals)
    ⟨f.pack (bs.map (·.codes)).flatten, bs.map (fun b => BitVec.ofNat 8 b.scale), (bs.map (·.cats)).flatten⟩
  else
    let es := List.zipWith (fun v r => f.convert1 c r v) vals rnd
    ⟨f.pack (es.map (·.1)), [], es.map (·.2)⟩

/-- R116: the 16 category counts of a list of masks. -/
def tally (cats : List Nat) : List Nat :=
  (List.range 16).map (fun c => (cats.filter (fun m => m.testBit c)).length)

end Sys2Proof.Machine
end

