-- ==== Sys2Proof/Machine/Regs.lean ====
section
/-! DEFINITION. The register map: every register of the package by its byte offset from 0x0F00_0000_0000 (01_one_package.md
R43, R44), with the access codes and reset values of the spec's field maps (00_scope.md R16 to R19). -/
namespace Sys2Proof.Machine

/-- 01_one_package.md, PKG_IDENT: PART [63:48], VARIANT [47:44], STEPPING [43:40], HBM_RATED [39:36]. -/
def Reg.pkgIdent : Nat := 0x0
/-- 01_one_package.md, PKG_CAP: UCIE_FITTED [63:40], HBM_PRESENT [39:32], DDR_PRESENT [31:24], DDR_USED [23:16], HBM_RUN [15:12], STACK_GIB [7:0]. -/
def Reg.pkgCap : Nat := 0x10
/-- 01_one_package.md, PKG_SERIAL: SERIAL [63:0]. -/
def Reg.pkgSerial : Nat := 0x8
/-- 01_one_package.md, PKG_NUMBER: VALID [31:31], PACKAGE [11:0]. -/
def Reg.pkgNumber : Nat := 0x18
/-- 01_one_package.md, PKG_SPARE: SPARES [62:60], SUSPECT [59:40], FENCED [39:20], GOOD [19:0]. -/
def Reg.pkgSpare (j : Nat) : Nat := 0x20 + 0x8 * j
/-- 01_one_package.md, PKG_SMAP: ENT7 [63:56], ENT6 [55:48], ENT5 [47:40], ENT4 [39:32], ENT3 [31:24], ENT2 [23:16], ENT1 [15:8], ENT0 [7:0]. -/
def Reg.pkgSmap (j : Nat) : Nat := 0x30 + 0x8 * j
/-- 01_one_package.md, PKG_SMAP_GEN: GEN [31:0]. -/
def Reg.pkgSmapGen : Nat := 0x50
/-- 03_plynax_programs.md, PRT_DOORBELL: TAIL [63:32], CONTEXT [15:0]. -/
def Reg.prtDoorbell (j : Nat) : Nat := 0x7400000 + 0x1000 * j
/-- 03_plynax_programs.md, PRT_SIGNAL: OBJ [45:32], ADD [31:0]. -/
def Reg.prtSignal (j : Nat) : Nat := 0x7400008 + 0x1000 * j
/-- 03_plynax_programs.md, CORE_CTX_BASE: BASE [47:24]. -/
def Reg.coreCtxBase (j : Nat) : Nat := 0x1001000 + 0x1000000 * j
/-- 03_plynax_programs.md, CORE_CTX_CMD: CMD [63:60], CONTEXT [15:0]. -/
def Reg.coreCtxCmd (j : Nat) : Nat := 0x1001008 + 0x1000000 * j
/-- 03_plynax_programs.md, CORE_CTX_STS: BUSY [63:63], RESULT [55:48], CONTEXT [15:0]. -/
def Reg.coreCtxSts (j : Nat) : Nat := 0x1001010 + 0x1000000 * j
/-- 03_plynax_programs.md, CORE_SYNC_OWN: VALID [63:63], PARTITION [9:0]. -/
def Reg.coreSyncOwn (i : Nat) (j : Nat) : Nat := 0x1020000 + 0x1000000 * i + 0x8 * j
/-- 03_plynax_programs.md, CORE_SYNC_VAL: COUNT [63:0]. -/
def Reg.coreSyncVal (i : Nat) (j : Nat) : Nat := 0x1040000 + 0x1000000 * i + 0x8 * j
/-- 03_plynax_programs.md, CORE_CTX: RUN_BF [63:63], FG_BOUND [62:62], BF_BOUND [61:61], BF_PARTITION [57:48], BF_CONTEXT [47:32], FG_PARTITION [25:16], FG_CONTEXT [15:0]. -/
def Reg.coreCtx (i : Nat) (j : Nat) : Nat := 0x1100000 + 0x1000000 * i + 0x10000 * j
/-- 03_plynax_programs.md, CORE_BF_CTRL: BF_EN [16:16], THRESH [15:0]. -/
def Reg.coreBfCtrl (i : Nat) (j : Nat) : Nat := 0x1100008 + 0x1000000 * i + 0x10000 * j
/-- 03_plynax_programs.md, CORE_FAULT: VALID [63:63], SLOT [62:62], CAUSE [55:48], CONTEXT [47:32], FAULT_PC [31:0]. -/
def Reg.coreFault (i : Nat) (j : Nat) : Nat := 0x1100010 + 0x1000000 * i + 0x10000 * j
/-- 04_arrays_and_accumulators.md, ACC_CHK_CTRL: TOL16 [20:16], TOL32 [12:8], MODE [1:0]. -/
def Reg.accChkCtrl (i : Nat) (j : Nat) : Nat := 0x1100100 + 0x1000000 * i + 0x10000 * j
/-- 04_arrays_and_accumulators.md, ACC_CHK_STS: VALID [63:63], OVF [62:62], SLOT [61:61], ARRAY [60:59], ACC [58:55], ROW [54:49], W16 [48:48], CONTEXT [47:32], LAYER [31:16], OPER [15:0]. -/
def Reg.accChkSts (i : Nat) (j : Nat) : Nat := 0x1100108 + 0x1000000 * i + 0x10000 * j
/-- 04_arrays_and_accumulators.md, ACC_CHK_CNT: SKIPPED [63:32], MISMATCH [31:0]. -/
def Reg.accChkCnt (i : Nat) (j : Nat) : Nat := 0x1100110 + 0x1000000 * i + 0x10000 * j
/-- 04_arrays_and_accumulators.md, ACC_SLOT: A3 [63:48], A2 [47:32], A1 [31:16], A0 [15:0]. -/
def Reg.accSlot (i : Nat) (j : Nat) : Nat := 0x1100118 + 0x1000000 * i + 0x10000 * j
/-- 05_vector_and_reduction.md, VEC_LAND: BF_DONE [31:24], BF_ARMED [23:16], FG_DONE [15:8], FG_ARMED [7:0]. -/
def Reg.vecLand (i : Nat) (j : Nat) : Nat := 0x1100200 + 0x1000000 * i + 0x10000 * j
/-- 05_vector_and_reduction.md, VEC_RED_CNT: ADDED [63:32], REFUSED [31:0]. -/
def Reg.vecRedCnt (i : Nat) (j : Nat) : Nat := 0x1100208 + 0x1000000 * i + 0x10000 * j
/-- 06_tiles_tiers_placement.md, MEM_PLC_BASE: BASE [47:26], EN [0:0]. -/
def Reg.memPlcBase : Nat := 0x5800000
/-- 06_tiles_tiers_placement.md, MEM_QUOTA_BASE: BASE [47:15], EN [0:0]. -/
def Reg.memQuotaBase : Nat := 0x5800008
/-- 06_tiles_tiers_placement.md, MEM_SQ_BASE: BASE [47:12], EN [0:0]. -/
def Reg.memSqBase (j : Nat) : Nat := 0x5800010 + 0x8 * j
/-- 06_tiles_tiers_placement.md, MEM_PLC_ARG: ARG [63:0]. -/
def Reg.memPlcArg : Nat := 0x5800020
/-- 06_tiles_tiers_placement.md, MEM_PLC_CMD: CMD [63:60], PARTITION [57:48], TIER [47:47], QEND [46:40], OBJECT [31:0]. -/
def Reg.memPlcCmd : Nat := 0x5800028
/-- 06_tiles_tiers_placement.md, MEM_PLC_STS: BUSY [63:63], RESULT [55:48], OBJECT [31:0]. -/
def Reg.memPlcSts : Nat := 0x5800030
/-- 07_page_code.md, ECC_STS: UE [52:32], CEO [20:0]. -/
def Reg.eccSts : Nat := 0x5000000
/-- 07_page_code.md, ECC_BUCKET_CTRL: LEAK_MS [47:32], UE_IE [17:17], CE_IE [16:16], THRESH [15:0]. -/
def Reg.eccBucketCtrl : Nat := 0x5000008
/-- 07_page_code.md, ECC_SCRUB_CTRL: SRAM_S [47:32], MEM_H [31:16], SRAM_EN [1:1], MEM_EN [0:0]. -/
def Reg.eccScrubCtrl : Nat := 0x5000010
/-- 07_page_code.md, ECC_SCRUB_STS: PASSES [63:32], RANGE [31:30], FRAME [29:0]. -/
def Reg.eccScrubSts : Nat := 0x5000018
/-- 07_page_code.md, ECC_INJECT: ARMED [63:63], KIND [61:60], LINES [59:56], ADDR [47:6]. -/
def Reg.eccInject : Nat := 0x5000020
/-- 07_page_code.md, ECC_CNT: LEVEL [63:48], UNW [47:36], UE [35:24], CE [23:0]. -/
def Reg.eccCnt (j : Nat) : Nat := 0x5000100 + 0x10 * j
/-- 07_page_code.md, ECC_LAST: KIND [63:61], SCRUB [60:60], SYMS [59:48], ADDR [47:6]. -/
def Reg.eccLast (j : Nat) : Nat := 0x5000108 + 0x10 * j
/-- 07_page_code.md, MEM_STRENGTH: NEXT_DDR [11:10], NEXT_H1 [9:8], NEXT_H0 [7:6], DDR [5:4], H1 [3:2], H0 [1:0]. -/
def Reg.memStrength : Nat := 0x5100000
/-- 07_page_code.md, MEM_TOP: TOP [47:13]. -/
def Reg.memTop (j : Nat) : Nat := 0x5100008 + 0x8 * j
/-- 07_page_code.md, MEM_MERGE: HWM [23:16], WINDOW [7:0]. -/
def Reg.memMerge : Nat := 0x5100020
/-- 07_page_code.md, MEM_SEAL: GEN [15:0]. -/
def Reg.memSeal : Nat := 0x5100028
/-- 08_training_step.md, CORE_UPD_CNT: ZERO [63:48], SKIP [47:32], TILES [31:0]. -/
def Reg.coreUpdCnt (i : Nat) (j : Nat) : Nat := 0x1100300 + 0x1000000 * i + 0x10000 * j
/-- 08_training_step.md, CORE_UPD_PIN: HELD [63:0]. -/
def Reg.coreUpdPin (j : Nat) : Nat := 0x1060000 + 0x1000000 * j
/-- 09_host_die_coupling.md, HCE_LINK_STS: D1_DOWN [57:57], D0_DOWN [56:56], D1_UP [55:52], D0_UP [51:48], LOSTDIRTY [47:32], D1_RETRAINS [31:16], D0_RETRAINS [15:0]. -/
def Reg.hceLinkSts : Nat := 0x6000000
/-- 09_host_die_coupling.md, HCE_RESTART: CMD [63:62], HOLD [33:33], DONE [32:32], DRAIN_NS [31:0]. -/
def Reg.hceRestart : Nat := 0x6000008
/-- 09_host_die_coupling.md, HCE_PCIE_CFG: NEXT_BIF [9:8], BIF [7:6], MAXGEN [5:3]. -/
def Reg.hcePcieCfg : Nat := 0x6000010
/-- 09_host_die_coupling.md, HCE_MSI: EN [63:63], HART [23:19], FILE [18:16], EIID [10:0]. -/
def Reg.hceMsi (j : Nat) : Nat := 0x6000100 + 0x8 * j
/-- 09_host_die_coupling.md, HCE_NOTIFY_CTL: EN [63:63], FIRED [62:62], OBJ [45:32], HART [23:19], FILE [18:16], EIID [10:0]. -/
def Reg.hceNotifyCtl (j : Nat) : Nat := 0x6001000 + 0x10 * j
/-- 09_host_die_coupling.md, HCE_NOTIFY_VAL: VALUE [63:0]. -/
def Reg.hceNotifyVal (j : Nat) : Nat := 0x6001008 + 0x10 * j
/-- 10_cragil_links_and_mac.md, FAB_CTRL: UNC_MAX [63:56], GROUP4 [51:40], GROUP4_RUN [39:28], ATTEMPTS [27:24], FALLBACK [23:23], CHECK [22:22], HELLO_MISS [21:16], HELLO [15:0]. -/
def Reg.fabCtrl : Nat := 0x4000000
/-- 10_cragil_links_and_mac.md, FAB_TCMAP: C7 [31:28], C6 [27:24], C5 [23:20], C4 [19:16], C3 [15:12], C2 [11:8], C1 [7:4], C0 [3:0]. -/
def Reg.fabTcmap : Nat := 0x4000008
/-- 10_cragil_links_and_mac.md, FAB_MAC_BASE: BASE [47:6]. -/
def Reg.fabMacBase : Nat := 0x4000010
/-- 10_cragil_links_and_mac.md, FAB_RXR_CFG: EN [63:63], SYNC [61:48], BASE [47:14], LOG2 [3:0]. -/
def Reg.fabRxrCfg : Nat := 0x4000020
/-- 10_cragil_links_and_mac.md, FAB_TXR_CFG: EN [63:63], SYNC [61:48], BASE [47:14], LOG2 [3:0]. -/
def Reg.fabTxrCfg : Nat := 0x4000030
/-- 10_cragil_links_and_mac.md, FAB_RXR_IDX: CONS [63:32], PROD [31:0]. -/
def Reg.fabRxrIdx : Nat := 0x4000028
/-- 10_cragil_links_and_mac.md, FAB_TXR_IDX: PROD [63:32], CONS [31:0]. -/
def Reg.fabTxrIdx : Nat := 0x4000038
/-- 10_cragil_links_and_mac.md, FAB_LANE_CFG: ROLE [15:12], MEDIA [11:10], AN [9:9], SPEEDS [8:6], SFEC [5:4]. -/
def Reg.fabLaneCfg (j : Nat) : Nat := 0x4001000 + 0x8 * j
/-- 10_cragil_links_and_mac.md, FAB_LANE_STS: STATE [63:60], SPEED [59:58], GROUPED [57:57], PEER_LANE [55:48], PEER_PKG [47:36], FAILS [35:32], PEER_LINC [31:16], LINC [15:0]. -/
def Reg.fabLaneSts (j : Nat) : Nat := 0x4002000 + 0x8 * j
/-- 10_cragil_links_and_mac.md, MAC_CTRL: PROMISC [63:63], BADDELIV [62:62], EXC_EN [61:61], VLAN [60:60], VID [59:48], MAXFRAME [13:0]. -/
def Reg.macCtrl (j : Nat) : Nat := 0x4100000 + 0x1000 * j
/-- 10_cragil_links_and_mac.md, MAC_FC: MODE [63:62], PFC_EN [61:54], QUANTA [47:32], XOFF [31:24], XON [23:16], WD [15:8]. -/
def Reg.macFc (j : Nat) : Nat := 0x4100008 + 0x1000 * j
/-- 10_cragil_links_and_mac.md, MAC_TS_ADJ: EGRESS [31:16], INGRESS [15:0]. -/
def Reg.macTsAdj (j : Nat) : Nat := 0x4100010 + 0x1000 * j
/-- 10_cragil_links_and_mac.md, MAC_FC_STS: WD_TRIP [23:16], XOFF_SENT [15:8], PAUSED [7:0]. -/
def Reg.macFcSts (j : Nat) : Nat := 0x4100018 + 0x1000 * j
/-- 10_cragil_links_and_mac.md, MAC_MCAST: VALID [63:63], ADDR [47:0]. -/
def Reg.macMcast (i : Nat) (j : Nat) : Nat := 0x4100100 + 0x1000 * i + 0x8 * j
/-- 10_cragil_links_and_mac.md, MAC_WAKE_CTL: EN [63:63], CRC [31:0]. -/
def Reg.macWakeCtl (j : Nat) : Nat := 0x4140080 + 0x100 * j
/-- 10_cragil_links_and_mac.md, MAC_WAKE_CFG: SLEEP_KX [0:0]. -/
def Reg.macWakeCfg : Nat := 0x4141000
/-- 10_cragil_links_and_mac.md, MAC_WAKE_STS: COUNT [63:32], WOKE [31:31], LAST [19:16], MATCH [15:0]. -/
def Reg.macWakeSts : Nat := 0x4141008
/-- 10_cragil_links_and_mac.md, MAC_WAKE_MASK: MASK [63:0]. -/
def Reg.macWakeMask (i : Nat) (j : Nat) : Nat := 0x4140000 + 0x100 * i + 0x8 * j
/-- 10_cragil_links_and_mac.md, MAC_COUNT: COUNT [63:0]. -/
def Reg.macCount (i : Nat) (j : Nat) : Nat := 0x4100200 + 0x1000 * i + 0x8 * j
/-- 11_one_memory_space.md, XPT_CTRL: PORT [63:48], RTO [47:40], RETRY [39:36], IPV [35:35], DUPTHRESH [31:24], ACK_N [23:16], RNR_HINT [15:0]. -/
def Reg.xptCtrl : Nat := 0x4200000
/-- 11_one_memory_space.md, XPT_IP6_HI: ADDR [63:0]. -/
def Reg.xptIp6Hi : Nat := 0x4200008
/-- 11_one_memory_space.md, XPT_IP6_LO: ADDR [63:0]. -/
def Reg.xptIp6Lo : Nat := 0x4200010
/-- 11_one_memory_space.md, XPT_IP4: ADDR [31:0]. -/
def Reg.xptIp4 : Nat := 0x4200018
/-- 11_one_memory_space.md, XPT_WIN_BASE: BASE [47:23], EN [0:0]. -/
def Reg.xptWinBase : Nat := 0x4200020
/-- 11_one_memory_space.md, XPT_WIN_CMD: CMD [63:60], PARTITION [57:48], WIN [7:0]. -/
def Reg.xptWinCmd : Nat := 0x4200028
/-- 11_one_memory_space.md, XPT_WIN_STS: BUSY [63:63], RESULT [55:48], PARTITION [25:16], CONTEXT [15:0]. -/
def Reg.xptWinSts : Nat := 0x4200030
/-- 11_one_memory_space.md, XPT_QP_STS: BUSY [63:63], RESULT [55:48], PARTITION [25:16], CONTEXT [15:0]. -/
def Reg.xptQpSts : Nat := 0x4200040
/-- 11_one_memory_space.md, XPT_QP_CMD: CMD [63:60], CONTEXT [15:0]. -/
def Reg.xptQpCmd : Nat := 0x4200038
/-- 11_one_memory_space.md, XPT_PKEY: GEN [63:48], KEY [47:0]. -/
def Reg.xptPkey (j : Nat) : Nat := 0x4210000 + 0x8 * j
/-- 11_one_memory_space.md, XPT_ROUTE: ENT7 [63:56], ENT6 [55:48], ENT5 [47:40], ENT4 [39:32], ENT3 [31:24], ENT2 [23:16], ENT1 [15:8], ENT0 [7:0]. -/
def Reg.xptRoute (j : Nat) : Nat := 0x4220000 + 0x8 * j
/-- 11_one_memory_space.md, XPT_APER: EN [63:63], PACKAGE [55:44], PARTITION [43:34], OFFHI [33:32], QP [15:0]. -/
def Reg.xptAper (j : Nat) : Nat := 0x4230000 + 0x10 * j
/-- 11_one_memory_space.md, XPT_APER_STS: ERR [63:63], STATUS [55:48], PENDING [31:0]. -/
def Reg.xptAperSts (j : Nat) : Nat := 0x4230008 + 0x10 * j
/-- 11_one_memory_space.md, XPT_COUNT: COUNT [63:0]. -/
def Reg.xptCount (i : Nat) (j : Nat) : Nat := 0x4201000 + 0x100 * i + 0x8 * j
/-- 12_collectives_and_pairs.md, COL_CTRL: GRACE [31:16], LOSS_HOLD [15:0]. -/
def Reg.colCtrl : Nat := 0x4300000
/-- 12_collectives_and_pairs.md, COL_MIRROR: EN [63:63], RESEND [62:62], STATE [61:60], FBROLE [59:56], PARTNER [55:44], QP [15:0]. -/
def Reg.colMirror : Nat := 0x4300008
/-- 12_collectives_and_pairs.md, COL_MMAP: EN [63:63], BASE [47:22]. -/
def Reg.colMmap : Nat := 0x4300010
/-- 12_collectives_and_pairs.md, COL_MIRROR_STS: FAIL [63:63], UNMIRRORED [47:32], PENDING [31:0]. -/
def Reg.colMirrorSts : Nat := 0x4300018
/-- 12_collectives_and_pairs.md, COL_LOSS: VALID [63:63], JOB [59:56], AXIS [55:54], DECL [53:53], BROKE [52:52], POS [51:48], PKG [43:32], EPOCH [31:0]. -/
def Reg.colLoss : Nat := 0x4300020
/-- 12_collectives_and_pairs.md, COL_JOB: EN [63:63], BASE [47:11]. -/
def Reg.colJob (j : Nat) : Nat := 0x4300100 + 0x8 * j
/-- 12_collectives_and_pairs.md, COL_COUNT: COUNT [63:0]. -/
def Reg.colCount (i : Nat) (j : Nat) : Nat := 0x4301000 + 0x100 * i + 0x8 * j
/-- 13_partitions_and_trust.md, PRT_CMD: CMD [63:60], PARTITION [57:48]. -/
def Reg.prtCmd : Nat := 0x7000000
/-- 13_partitions_and_trust.md, PRT_ARG: SIZE [63:59], VA [41:16]. -/
def Reg.prtArg : Nat := 0x7000008
/-- 13_partitions_and_trust.md, PRT_STS: BUSY [63:63], RESULT [55:48], PARTITION [9:0]. -/
def Reg.prtSts : Nat := 0x7000010
/-- 13_partitions_and_trust.md, PRT_PART: EN [63:63], STATE [62:60], TT_BASE [47:15]. -/
def Reg.prtPart (j : Nat) : Nat := 0x7010000 + 0x8 * j
/-- 13_partitions_and_trust.md, PRT_DBREJ: COUNT [31:0]. -/
def Reg.prtDbrej (j : Nat) : Nat := 0x7020000 + 0x8 * j
/-- 13_partitions_and_trust.md, SEC_STATUS: LIFECYCLE [63:60], REVOKED [59:56], BOOT_SLOT [55:54], BANK [53:53], FALLBACK [52:52], OWNER_SET [51:51], DEBUG [50:50], SVN_FUSED [47:40], SVN_RUN [39:32], NONCE [31:0]. -/
def Reg.secStatus : Nat := 0x7800000
/-- 13_partitions_and_trust.md, SEC_POLICY: SP [15:12], SMB [11:8], I3C [7:4], HOST [3:0]. -/
def Reg.secPolicy : Nat := 0x7800008
/-- 13_partitions_and_trust.md, SEC_LOG_IDX: NEXT [31:0]. -/
def Reg.secLogIdx : Nat := 0x7800010
/-- 13_partitions_and_trust.md, SEC_OWNER: DIGEST [63:0]. -/
def Reg.secOwner (j : Nat) : Nat := 0x7800040 + 0x8 * j
/-- 13_partitions_and_trust.md, SEC_MEAS: VALUE [63:0]. -/
def Reg.secMeas (j : Nat) : Nat := 0x7801000 + 0x8 * j
/-- 13_partitions_and_trust.md, SEC_LOG: WORD [63:0]. -/
def Reg.secLog (j : Nat) : Nat := 0x7810000 + 0x8 * j
/-- 14_faults_within_order.md, PKG_FLT_CTRL: ACHK_FENCE [47:40], ACHK_WIN [39:24], DRAIN_LIMIT [23:16], SRAM_MIG [0:0]. -/
def Reg.pkgFltCtrl : Nat := 0x100
/-- 14_faults_within_order.md, PKG_FLT_STS: MIGRATIONS [63:48], LOSSES [47:32], WORST_US [31:16], EVT_DROP [15:0]. -/
def Reg.pkgFltSts : Nat := 0x108
/-- 14_faults_within_order.md, PKG_EVT_CFG: EN [63:63], BASE [47:12], LOG2 [3:0]. -/
def Reg.pkgEvtCfg : Nat := 0x110
/-- 14_faults_within_order.md, PKG_EVT_IDX: CONS [63:32], PROD [31:0]. -/
def Reg.pkgEvtIdx : Nat := 0x118
/-- 14_faults_within_order.md, PKG_DEFECT: PASSED [59:40], SUSPECT [39:20], DEFECT [19:0]. -/
def Reg.pkgDefect (j : Nat) : Nat := 0x120 + 0x8 * j
/-- 14_faults_within_order.md, PKG_FLOG_IDX: NEXT [31:0]. -/
def Reg.pkgFlogIdx : Nat := 0x130
/-- 14_faults_within_order.md, PKG_STALE: COUNT [63:0]. -/
def Reg.pkgStale (j : Nat) : Nat := 0x140 + 0x8 * j
/-- 14_faults_within_order.md, PKG_FLOG: WORD [63:0]. -/
def Reg.pkgFlog (j : Nat) : Nat := 0x80000 + 0x8 * j
/-- 15_power_time_reset.md, AON_PWR_CMD: CMD [63:60], KEY [15:8]. -/
def Reg.aonPwrCmd : Nat := 0x100000
/-- 15_power_time_reset.md, AON_PWR_STS: STATE [63:61], BUSY [60:60], NOR_PEND [59:59], RESULT [55:48], WAKE_SRC [47:44], EXIT_US [31:0]. -/
def Reg.aonPwrSts : Nat := 0x100008
/-- 15_power_time_reset.md, AON_PWR_CFG: IDLE_EN [16:16], TJ_THROTTLE [15:8], SUSTAIN [7:0]. -/
def Reg.aonPwrCfg : Nat := 0x100010
/-- 15_power_time_reset.md, AON_PWR_MON: VIN [63:48], PIN [47:32], TJ_MAX [31:20], LEVEL [19:16], ENV [15:15], TEMP [14:14], OV [13:13]. -/
def Reg.aonPwrMon : Nat := 0x100018
/-- 15_power_time_reset.md, AON_LOST: LOST_STATE [63:63], NOR [54:54], SAVE [53:53], THERM [52:52], MAIN [51:51], SLEEP [50:50], RESET [49:49], COLD [48:48]. -/
def Reg.aonLost : Nat := 0x100020
/-- 15_power_time_reset.md, AON_SAVE_BASE: BASE [47:24], EN [0:0]. -/
def Reg.aonSaveBase : Nat := 0x100028
/-- 15_power_time_reset.md, AON_TIME_CTRL: QUAL [63:63], LOCK [62:62], PPS_EN [61:61], PPS_EDGE [60:60], FREQ [31:0]. -/
def Reg.aonTimeCtrl : Nat := 0x100048
/-- 15_power_time_reset.md, AON_ALARM: EN [63:63], TIME [62:0]. -/
def Reg.aonAlarm : Nat := 0x100060
/-- 15_power_time_reset.md, AON_TIME: NS [63:0]. -/
def Reg.aonTime : Nat := 0x100040
/-- 15_power_time_reset.md, AON_TIME_STEP: STEP [63:0]. -/
def Reg.aonTimeStep : Nat := 0x100050
/-- 15_power_time_reset.md, AON_PPS: NS [63:0]. -/
def Reg.aonPps : Nat := 0x100058
/-- 16_coming_to_life.md, PKG_START_STS: STAGE [63:60], DONE [59:59], STOPPED [58:58], ELAPSED_US [31:0]. -/
def Reg.pkgStartSts : Nat := 0x200
/-- 16_coming_to_life.md, PKG_START_CTRL: STARTS [31:16], CLEAR [1:1], FULL [0:0]. -/
def Reg.pkgStartCtrl : Nat := 0x208
/-- 16_coming_to_life.md, PKG_STAGE: RESULT [63:60], METHOD [59:56], CAUSE [55:48], UNITS [47:24], DUR_US [23:0]. -/
def Reg.pkgStage (j : Nat) : Nat := 0x210 + 0x8 * j
/-- 16_coming_to_life.md, PKG_UNIT_MEM: DDR [31:16], HBM [15:0]. -/
def Reg.pkgUnitMem : Nat := 0x260
/-- 16_coming_to_life.md, PKG_UNIT_UCIE: MOD [47:0]. -/
def Reg.pkgUnitUcie : Nat := 0x268
/-- 16_coming_to_life.md, PKG_TEST_CMD: CMD [63:60], WHEN_IDLE [59:59], KIND [55:52], DIE [47:46], UNIT [45:40]. -/
def Reg.pkgTestCmd : Nat := 0x300
/-- 16_coming_to_life.md, PKG_TEST_STS: BUSY [63:63], WAITING [62:62], RESULT [55:52], KIND [51:48], DIE [47:46], UNIT [45:40], SUBTEST [39:32], DUR_US [31:0]. -/
def Reg.pkgTestSts : Nat := 0x308
/-- 16_coming_to_life.md, PKG_CAL_CTRL: PERIOD_S [31:16], DRIFT_C [15:8], EN [0:0]. -/
def Reg.pkgCalCtrl : Nat := 0x310
/-- 17_counters_traces_hangs.md, CNT_CTRL: EN [63:63], TAGSPLIT [62:62], CENSUS_EN [61:61], CENSUS_ALL [60:60], CENSUS_FMT [59:56], PERIOD_US [15:0]. -/
def Reg.cntCtrl : Nat := 0x8000000
/-- 17_counters_traces_hangs.md, CNT_FILTER: EN [63:63], LAYER [47:32], LMASK [31:16], OPER [15:0]. -/
def Reg.cntFilter : Nat := 0x8000008
/-- 17_counters_traces_hangs.md, CNT_OMASK: OMASK [15:0]. -/
def Reg.cntOmask : Nat := 0x8000020
/-- 17_counters_traces_hangs.md, CNT_VIEW_BASE: BASE [47:16], EN [0:0]. -/
def Reg.cntViewBase : Nat := 0x8000010
/-- 17_counters_traces_hangs.md, CNT_CMD: SAMPLE [63:63]. -/
def Reg.cntCmd : Nat := 0x8000018
/-- 17_counters_traces_hangs.md, DBG_TRC_CTRL: EN [63:63], P0_ALL [62:62], TYPES [47:32], ICLASS [31:24], STALL_MIN [23:0]. -/
def Reg.dbgTrcCtrl : Nat := 0x8001000
/-- 17_counters_traces_hangs.md, DBG_TRC_STS: LOST1 [63:32], LOST0 [31:0]. -/
def Reg.dbgTrcSts : Nat := 0x8001008
/-- 17_counters_traces_hangs.md, DBG_WFG_CTRL: CMD [63:63], AUTO [62:62], HANG_MS [15:0]. -/
def Reg.dbgWfgCtrl : Nat := 0x8002000
/-- 17_counters_traces_hangs.md, DBG_WFG_BASE: SIZE [63:48], BASE [47:16]. -/
def Reg.dbgWfgBase : Nat := 0x8002008
/-- 17_counters_traces_hangs.md, DBG_WFG_STS: BUSY [63:63], TRUNC [62:62], MERGED [61:48], CYCLES [47:32], SEQ [31:0]. -/
def Reg.dbgWfgSts : Nat := 0x8002010
/-- 17_counters_traces_hangs.md, CNT_CYC: COUNT [63:0]. -/
def Reg.cntCyc (i : Nat) (j : Nat) : Nat := 0x8100000 + 0x1000 * i + 0x8 * j
/-- 17_counters_traces_hangs.md, CNT_CEN: COUNT [63:0]. -/
def Reg.cntCen (i : Nat) (j : Nat) : Nat := 0x8200000 + 0x1000 * i + 0x8 * j

/-- One register, or a two-dimensional array of registers: its first offset, the two strides and counts, the bits with
access RW and W1C, the bits marked /ret, and the reset value (fields whose reset is "fuse" or "see text" read 0 here and
are set by the reset or by the commands). -/
structure RegDesc where
  base : Nat
  s1 : Nat
  c1 : Nat
  s2 : Nat
  c2 : Nat
  rw : Word
  w1c : Word
  ret : Word
  reset : Word
deriving DecidableEq, Repr

/-- A row of the table. -/
def row (base s1 c1 s2 c2 rw w1c ret reset : Nat) : RegDesc :=
  ⟨base, s1, c1, s2, c2, BitVec.ofNat 64 rw, BitVec.ofNat 64 w1c, BitVec.ofNat 64 ret, BitVec.ofNat 64 reset⟩

/-- Part 1 of the register table: field maps of the spec, one row per register or array of registers. -/
def regTable1 : List RegDesc := [
  row 0x0 0x0 1 0x8 1 0x0 0x0 0x0 0x4860000000000000,
  row 0x10 0x0 1 0x8 1 0x0 0x0 0x0 0xff0f0f0000000000,
  row 0x8 0x0 1 0x8 1 0x0 0x0 0x0 0x0,
  row 0x18 0x0 1 0x8 1 0x80000fff 0x0 0x80000fff 0x0,
  row 0x20 0x0 1 0x8 2 0x0 0x0 0x0 0x0,
  row 0x30 0x0 1 0x8 4 0x0 0x0 0x0 0x0,
  row 0x50 0x0 1 0x8 1 0x0 0x0 0x0 0x0,
  row 0x7400000 0x0 1 0x1000 1024 0x0 0x0 0x0 0x0,
  row 0x7400008 0x0 1 0x1000 1024 0x0 0x0 0x0 0x0,
  row 0x1001000 0x0 1 0x1000000 2 0xffffff000000 0x0 0x0 0x0,
  row 0x1001008 0x0 1 0x1000000 2 0x0 0x0 0x0 0x0,
  row 0x1001010 0x0 1 0x1000000 2 0x0 0x0 0x0 0x0,
  row 0x1020000 0x1000000 2 0x8 8192 0x80000000000003ff 0x0 0x0 0x0,
  row 0x1040000 0x1000000 2 0x8 8192 0x0 0x0 0x0 0x0,
  row 0x1100000 0x1000000 2 0x10000 20 0x0 0x0 0x0 0x0,
  row 0x1100008 0x1000000 2 0x10000 20 0x1ffff 0x0 0x0 0x14,
  row 0x1100010 0x1000000 2 0x10000 20 0x0 0x8000000000000000 0x0 0x0,
  row 0x1100100 0x1000000 2 0x10000 20 0x1f1f03 0x0 0x0 0x50c02,
  row 0x1100108 0x1000000 2 0x10000 20 0x0 0x8000000000000000 0x0 0x0,
  row 0x1100110 0x1000000 2 0x10000 20 0x0 0x0 0x0 0x0,
  row 0x1100118 0x1000000 2 0x10000 20 0x0 0x0 0x0 0x0,
  row 0x1100200 0x1000000 2 0x10000 20 0x0 0x0 0x0 0x0,
  row 0x1100208 0x1000000 2 0x10000 20 0x0 0x0 0x0 0x0,
  row 0x5800000 0x0 1 0x8 1 0xfffffc000001 0x0 0x0 0x0,
  row 0x5800008 0x0 1 0x8 1 0xffffffff8001 0x0 0x0 0x0,
  row 0x5800010 0x0 1 0x8 2 0xfffffffff001 0x0 0x0 0x0,
  row 0x5800020 0x0 1 0x8 1 0xffffffffffffffff 0x0 0x0 0x0,
  row 0x5800028 0x0 1 0x8 1 0x0 0x0 0x0 0x0,
  row 0x5800030 0x0 1 0x8 1 0x0 0x0 0x0 0x0,
  row 0x5000000 0x0 1 0x8 1 0x0 0x1fffff001fffff 0x0 0x0]

/-- Part 2 of the register table: field maps of the spec, one row per register or array of registers. -/
def regTable2 : List RegDesc := [
  row 0x5000008 0x0 1 0x8 1 0xffff0003ffff 0x0 0xffff0003ffff 0x3e800030020,
  row 0x5000010 0x0 1 0x8 1 0xffffffff0003 0x0 0xffffffff0003 0x25801e00003,
  row 0x5000018 0x0 1 0x8 1 0x0 0x0 0x0 0x0,
  row 0x5000020 0x0 1 0x8 1 0xbf00ffffffffffc0 0x0 0x0 0x100000000000000,
  row 0x5000100 0x0 1 0x10 21 0x0 0x0 0x0 0x0,
  row 0x5000108 0x0 1 0x10 21 0x0 0x0 0x0 0x0,
  row 0x5100000 0x0 1 0x8 1 0xfc0 0x0 0xfc0 0x0,
  row 0x5100008 0x0 1 0x8 3 0x0 0x0 0x0 0x0,
  row 0x5100020 0x0 1 0x8 1 0xff 0x0 0xff 0xa,
  row 0x5100028 0x0 1 0x8 1 0x0 0x0 0xffff 0x0,
  row 0x1100300 0x1000000 2 0x10000 20 0x0 0x0 0x0 0x0,
  row 0x1060000 0x0 1 0x1000000 2 0x0 0x0 0x0 0x0,
  row 0x6000000 0x0 1 0x8 1 0x0 0x0 0x0 0x0,
  row 0x6000008 0x0 1 0x8 1 0x0 0x0 0x0 0x0,
  row 0x6000010 0x0 1 0x8 1 0x338 0x0 0x338 0x30,
  row 0x6000100 0x0 1 0x8 8 0x8000000000ff07ff 0x0 0x0 0x0,
  row 0x6001000 0x0 1 0x10 256 0x80003fff00ff07ff 0x4000000000000000 0x0 0x0,
  row 0x6001008 0x0 1 0x10 256 0xffffffffffffffff 0x0 0x0 0x0,
  row 0x4000000 0x0 1 0x8 1 0xff0fff000fffffff 0x0 0xff0fff000fffffff 0x800000004c30028,
  row 0x4000008 0x0 1 0x8 1 0xffffffff 0x0 0xffffffff 0x123456,
  row 0x4000010 0x0 1 0x8 1 0xffffffffffc0 0x0 0xffffffffffc0 0x2d500000000,
  row 0x4000020 0x0 1 0x8 1 0xbfffffffffffc00f 0x0 0x0 0x4,
  row 0x4000030 0x0 1 0x8 1 0xbfffffffffffc00f 0x0 0x0 0x4,
  row 0x4000028 0x0 1 0x8 1 0xffffffff00000000 0x0 0x0 0x0,
  row 0x4000038 0x0 1 0x8 1 0xffffffff00000000 0x0 0x0 0x0,
  row 0x4001000 0x0 1 0x8 5 0xfff0 0x0 0xfff0 0x17c0,
  row 0x4001028 0x0 1 0x8 5 0xfff0 0x0 0xfff0 0x27c0,
  row 0x4001050 0x0 1 0x8 5 0xfff0 0x0 0xfff0 0x37c0,
  row 0x4001078 0x0 1 0x8 5 0xfff0 0x0 0xfff0 0x47c0,
  row 0x40010a0 0x0 1 0x8 5 0xfff0 0x0 0xfff0 0x57c0]

/-- Part 3 of the register table: field maps of the spec, one row per register or array of registers. -/
def regTable3 : List RegDesc := [
  row 0x40010c8 0x0 1 0x8 5 0xfff0 0x0 0xfff0 0x67c0,
  row 0x40010f0 0x0 1 0x8 5 0xfff0 0x0 0xfff0 0x77c0,
  row 0x4001118 0x0 1 0x8 5 0xfff0 0x0 0xfff0 0x87c0,
  row 0x4001140 0x0 1 0x8 8 0xfff0 0x0 0xfff0 0x97c0,
  row 0x4001180 0x0 1 0x8 1 0xfff0 0x0 0xfff0 0xb3c0,
  row 0x4002000 0x0 1 0x8 49 0x0 0x0 0x0 0xff000000000000,
  row 0x4100000 0x0 1 0x1000 49 0xffff000000003fff 0x0 0xffff000000003fff 0x2000000000002400,
  row 0x4100008 0x0 1 0x1000 48 0xffc0ffffffffff00 0x0 0xffc0ffffffffff00 0x9f80ffff20100a00,
  row 0x4130008 0x0 1 0x8 1 0xffc0ffffffffff00 0x0 0xffc0ffffffffff00 0x1f80ffff20100a00,
  row 0x4100010 0x0 1 0x1000 49 0xffffffff 0x0 0xffffffff 0x0,
  row 0x4100018 0x0 1 0x1000 49 0x0 0x0 0x0 0x0,
  row 0x4100100 0x0 1 0x1000 49 0x8000ffffffffffff 0x0 0x8000ffffffffffff 0x80000180c200000e,
  row 0x4100108 0x1000 49 0x8 15 0x8000ffffffffffff 0x0 0x8000ffffffffffff 0x0,
  row 0x4140080 0x0 1 0x100 16 0x80000000ffffffff 0x0 0x80000000ffffffff 0x0,
  row 0x4141000 0x0 1 0x8 1 0x1 0x0 0x1 0x1,
  row 0x4141008 0x0 1 0x8 1 0x0 0x8000ffff 0x0 0x0,
  row 0x4140000 0x100 16 0x8 16 0xffffffffffffffff 0x0 0xffffffffffffffff 0x0,
  row 0x4100200 0x1000 49 0x8 16 0x0 0x0 0x0 0x0,
  row 0x4200000 0x0 1 0x8 1 0xfffffff8ffffffff 0x0 0xfffffff8ffffffff 0xc4a2147010080014,
  row 0x4200008 0x0 1 0x8 1 0xffffffffffffffff 0x0 0xffffffffffffffff 0x0,
  row 0x4200010 0x0 1 0x8 1 0xffffffffffffffff 0x0 0xffffffffffffffff 0x0,
  row 0x4200018 0x0 1 0x8 1 0xffffffff 0x0 0xffffffff 0x0,
  row 0x4200020 0x0 1 0x8 1 0xffffff800001 0x0 0x0 0x0,
  row 0x4200028 0x0 1 0x8 1 0x0 0x0 0x0 0x0,
  row 0x4200030 0x0 1 0x8 1 0x0 0x0 0x0 0x0,
  row 0x4200040 0x0 1 0x8 1 0x0 0x0 0x0 0x0,
  row 0x4200038 0x0 1 0x8 1 0x0 0x0 0x0 0x0,
  row 0x4210000 0x0 1 0x8 1024 0xffffffffffff 0x0 0x0 0x0,
  row 0x4220000 0x0 1 0x8 512 0xffffffffffffffff 0x0 0xffffffffffffffff 0x0,
  row 0x4230000 0x0 1 0x10 64 0x80ffffff0000ffff 0x0 0x0 0x0]

/-- Part 4 of the register table: field maps of the spec, one row per register or array of registers. -/
def regTable4 : List RegDesc := [
  row 0x4230008 0x0 1 0x10 64 0x0 0x8000000000000000 0x0 0x0,
  row 0x4201000 0x100 2 0x8 10 0x0 0x0 0x0 0x0,
  row 0x4300000 0x0 1 0x8 1 0xffffffff 0x0 0xffffffff 0x640002,
  row 0x4300008 0x0 1 0x8 1 0x8ffff0000000ffff 0x0 0xffff0000000ffff 0x100000000000000,
  row 0x4300010 0x0 1 0x8 1 0x8000ffffffc00000 0x0 0x0 0x0,
  row 0x4300018 0x0 1 0x8 1 0x0 0x8000000000000000 0x0 0x0,
  row 0x4300020 0x0 1 0x8 1 0x0 0x8000000000000000 0x0 0x0,
  row 0x4300100 0x0 1 0x8 16 0x8000fffffffff800 0x0 0xfffffffff800 0x0,
  row 0x4301000 0x100 2 0x8 8 0x0 0x0 0x0 0x0,
  row 0x7000000 0x0 1 0x8 1 0x0 0x0 0x0 0x0,
  row 0x7000008 0x0 1 0x8 1 0xf80003ffffff0000 0x0 0x0 0x0,
  row 0x7000010 0x0 1 0x8 1 0x0 0x0 0x0 0x0,
  row 0x7010000 0x0 1 0x8 1024 0xffffffff8000 0x0 0x0 0x0,
  row 0x7020000 0x0 1 0x8 1024 0x0 0x0 0x0 0x0,
  row 0x7800000 0x0 1 0x8 1 0x0 0x0 0x8000000000000 0x0,
  row 0x7800008 0x0 1 0x8 1 0xffff 0x0 0xffff 0x73f3,
  row 0x7800010 0x0 1 0x8 1 0x0 0x0 0xffffffff 0x0,
  row 0x7800040 0x0 1 0x8 8 0x0 0x0 0xffffffffffffffff 0x0,
  row 0x7801000 0x0 1 0x8 64 0x0 0x0 0x0 0x0,
  row 0x7810000 0x0 1 0x8 4096 0x0 0x0 0xffffffffffffffff 0x0,
  row 0x100 0x0 1 0x8 1 0xffffffff0001 0x0 0xffffffff0001 0x303e80a0001,
  row 0x108 0x0 1 0x8 1 0x0 0x0 0x0 0x0,
  row 0x110 0x0 1 0x8 1 0x8000fffffffff00f 0x0 0x0 0x6,
  row 0x118 0x0 1 0x8 1 0xffffffff00000000 0x0 0x0 0x0,
  row 0x120 0x0 1 0x8 2 0x0 0x0 0xfffffffffffffff 0x0,
  row 0x130 0x0 1 0x8 1 0x0 0x0 0xffffffff 0x0,
  row 0x140 0x0 1 0x8 3 0x0 0x0 0x0 0x0,
  row 0x80000 0x0 1 0x8 4096 0x0 0x0 0xffffffffffffffff 0x0,
  row 0x100000 0x0 1 0x8 1 0x0 0x0 0x0 0x0,
  row 0x100008 0x0 1 0x8 1 0x0 0x0 0x0 0x0]

/-- Part 5 of the register table: field maps of the spec, one row per register or array of registers. -/
def regTable5 : List RegDesc := [
  row 0x100010 0x0 1 0x8 1 0x1ffff 0x0 0x1ffff 0x16428,
  row 0x100018 0x0 1 0x8 1 0x0 0x0 0x0 0x0,
  row 0x100020 0x0 1 0x8 1 0x0 0x7f000000000000 0x0 0x0,
  row 0x100028 0x0 1 0x8 1 0xffffff000001 0x0 0x0 0x0,
  row 0x100048 0x0 1 0x8 1 0x20000000ffffffff 0x1000000000000000 0x2000000000000000 0x8000000000000000,
  row 0x100060 0x0 1 0x8 1 0xffffffffffffffff 0x0 0x0 0x0,
  row 0x100040 0x0 1 0x8 1 0x0 0x0 0x0 0x0,
  row 0x100050 0x0 1 0x8 1 0x0 0x0 0x0 0x0,
  row 0x100058 0x0 1 0x8 1 0x0 0x0 0x0 0x0,
  row 0x200 0x0 1 0x8 1 0x0 0x0 0x0 0x0,
  row 0x208 0x0 1 0x8 1 0x1 0x0 0xffff0001 0x0,
  row 0x210 0x0 1 0x8 9 0x0 0x0 0x0 0x0,
  row 0x260 0x0 1 0x8 1 0x0 0x0 0xffffffff 0x0,
  row 0x268 0x0 1 0x8 1 0x0 0x0 0xffffffffffff 0x0,
  row 0x300 0x0 1 0x8 1 0x0 0x0 0x0 0x0,
  row 0x308 0x0 1 0x8 1 0x0 0x0 0x0 0x0,
  row 0x310 0x0 1 0x8 1 0xffffff01 0x0 0xffffff01 0xe100a01,
  row 0x8000000 0x0 1 0x8 1 0xff0000000000ffff 0x0 0x0 0x47000000000003e8,
  row 0x8000008 0x0 1 0x8 1 0x8000ffffffffffff 0x0 0x0 0x0,
  row 0x8000020 0x0 1 0x8 1 0xffff 0x0 0x0 0x0,
  row 0x8000010 0x0 1 0x8 1 0xffffffff0001 0x0 0x0 0x0,
  row 0x8000018 0x0 1 0x8 1 0x0 0x0 0x0 0x0,
  row 0x8001000 0x0 1 0x8 1 0xc000ffffffffffff 0x0 0x0 0x400000fc00001388,
  row 0x8001008 0x0 1 0x8 1 0x0 0x0 0x0 0x0,
  row 0x8002000 0x0 1 0x8 1 0x400000000000ffff 0x0 0x400000000000ffff 0x4000000000000064,
  row 0x8002008 0x0 1 0x8 1 0xffffffffffff0000 0x0 0x0 0x0,
  row 0x8002010 0x0 1 0x8 1 0x0 0x0 0x0 0x0,
  row 0x8100000 0x1000 40 0x8 48 0x0 0x0 0x0 0x0,
  row 0x8200000 0x1000 40 0x8 96 0x0 0x0 0x0 0x0]

/-- Every register of the package. -/
def regTable : List RegDesc :=
  regTable1 ++ regTable2 ++ regTable3 ++ regTable4 ++ regTable5

/-- Is `off` the offset of one of the registers of this row? -/
def RegDesc.covers (d : RegDesc) (off : Nat) : Bool :=
  if off < d.base then false
  else
    let x := off - d.base
    let i := if d.c1 = 1 then 0 else x / d.s1
    let y := x - i * d.s1
    let j := if d.c2 = 1 then 0 else y / d.s2
    decide (i < d.c1) && decide (j < d.c2) && decide (x = i * d.s1 + j * d.s2)

/-- The register at an offset, if there is one (R42: an address that holds no register reads as zero). -/
def regDesc (off : Nat) : Option RegDesc := regTable.find? (·.covers off)

/-- The reset value of the register at an offset; zero where no register lies (R42). -/
def regReset (off : Nat) : Word := ((regDesc off).map (·.reset)).getD 0

/-- R16: what a write of `v` leaves in a register that holds `cur`: RW bits take the written value, W1C bits written as 1
are cleared, every other bit keeps its value. -/
def RegDesc.write (d : RegDesc) (cur v : Word) : Word :=
  ((cur &&& ~~~d.rw) ||| (v &&& d.rw)) &&& ~~~(v &&& d.w1c)

/-- R17, R19: what a warm reset leaves: /ret bits keep their value, every other bit takes its reset value. -/
def RegDesc.warm (d : RegDesc) (cur : Word) : Word := (cur &&& d.ret) ||| (d.reset &&& ~~~d.ret)

end Sys2Proof.Machine
end

