-- ==== Sys2Proof/Machine/State.lean ====
section
/-! DEFINITION. The state of the package as plain data: registers, memory with its frame metadata, context slots, cores,
engines, ports, the transport, power and start state, and the queue of waiting commands. -/
namespace Sys2Proof.Machine

/-! ### Memory (06, 07) -/

/-- What a controller or a side store keeps of one 8 KiB frame beside its data bytes: header and sideband (R283), the seal
(R351), and the bits that differ from what was stored: position line × 528 + bit, bits 512 to 527 of a line being its inner
check value, and lines from 137 on the outer check symbols (R339, R342, R344; log entry 15). -/
structure FrameMeta where
  hdr : Header := {}
  side : List Byte := []
  gen : BitVec 16 := 0
  errs : List Nat := []
deriving DecidableEq, Repr

/-- An open entry of a controller's merge buffer (R355): the frame and its valid bytes by offset. -/
structure MergeEntry where
  ctl : Nat
  frame : Nat
  bytes : List Host.Cell
deriving DecidableEq, Repr

/-- Memory: the data bytes of every tier and store by physical address (a byte not listed reads 0), the frame metadata by
frame number, the merge buffers oldest entry first, HBM lines that a host-die cache holds modified with their bytes, and
DDR5 lines that a compute die's device cache holds modified (R430 to R433). -/
structure Mem where
  cells : List Host.Cell := []
  fmeta : SMap FrameMeta := []
  merge : List MergeEntry := []
  hostDirty : SMap (List Byte) := []
  devDirty : List (Nat × Nat) := []
  poisonLines : List Nat := []
deriving DecidableEq, Repr

/-! ### Context slots (03, 04, 05, 06, 08) -/

/-- A tile register with its header (R224, R226: no format until written). -/
structure TReg where
  fmt : Option Fmt := none
  sat : Bool := false
  empty : Word := 0
  data : List Byte := []
deriving DecidableEq, Repr

/-- A loop counter (R138, R147): `start` and `stop` are the fetch indices of the body's first word and of the word after
its last, `pc` that of the LOOP. -/
structure Loop where
  active : Bool := false
  count : Nat := 0
  idx : Nat := 0
  start : BitVec 32 := 0
  stop : BitVec 32 := 0
  pc : BitVec 32 := 0
  depth : Nat := 0
deriving DecidableEq, Repr

/-- What a member waits for: a sync object (R154), an arrival fence (R308), stage-queue credits (R317), a fence scope
(R161), a state object to become Fast (R412). -/
inductive Wait where
  | none
  | sync (obj : Nat) (v : Word)
  | fence (obj : BitVec 32) (ver : Nat) (readThrough : Bool)
  | credit (q : Nat)
  | scope (s : Nat)
  | runFast (obj : BitVec 32)
deriving DecidableEq, Repr

/-- Where a slot stands: not bound, running, ended (R151), or stopped at an instruction boundary (R130, R172). -/
inductive SlotSt where
  | idle
  | run
  | ended
  | stop
deriving DecidableEq, Repr

/-- A faulting instruction (R173): cause, fetch index, CLASS and OP fields, tags, package time. -/
structure FaultInfo where
  cause : Nat
  pc : BitVec 32
  cls : Nat
  op : Nat
  layer : BitVec 16
  oper : BitVec 16
  time : Nat
deriving DecidableEq, Repr

/-- The state of a landing entry (R266 to R275); `none`: never armed or removed. -/
inductive LandSt where
  | none
  | armed
  | complete
  | closed
deriving DecidableEq, Repr

/-- A landing entry: the physical frames, their contributor bitmaps, the arm's fields (R266, R268), and for a landing of a
collective the admitted set and the indices of lost positions, which no longer count (R587, R604). -/
structure Landing where
  st : LandSt := .none
  frames : List Nat := []
  fmt : Fmt := .fp32
  ltag : BitVec 16 := 0
  expect : Nat := 0
  init : Bool := false
  recPas : List Nat := []
  obj : Nat := 0
  value : Nat := 0
  bits : List Nat := []
  refused : Nat := 0
  poison : Bool := false
  coll : Option Nat := none
  admitted : Option Nat := none
  origin : Option (BitVec 32) := none
  skip : Nat := 0
deriving DecidableEq, Repr

/-- A redirect entry (R311): the object and its frame ranges, as physical addresses. -/
structure Redirect where
  obj : BitVec 32
  fast : Nat
  slow : Nat
  frames : Nat
deriving DecidableEq, Repr

/-- A step of an update program (R388). -/
structure UStep where
  op : Nat
  d : Nat
  a : Nat
  b : Nat
  c : Nat
deriving DecidableEq, Repr

/-- A loaded program slot (R387). -/
structure Prog where
  lay4 : Bool
  fact : Bool
  fbop : Nat
  mrm : Nat
  ks : List Nat
  steps : List UStep
deriving DecidableEq, Repr

/-- A tile held in a set of stationary registers (R179, R203): the cell format, the values row by row (64 rows of K), and
the checksum column's sums, one for each of the K elements of a cell row (R192; log entry 16). -/
structure StatTile where
  fmt : Fmt
  split : Bool
  vals : List Val
  chk : List Val
deriving DecidableEq, Repr

/-- One context slot of a core (R138, R194, R266, R311, R387), with what the context cache holds of its stream's descriptor
(R123, R124): STATE, the ring's address and log2, the wait limit, the completion signal. -/
structure Slot where
  bound : Bool := false
  ctx : BitVec 16 := 0
  part : BitVec 10 := 0
  everBound : Bool := false
  log : Nat := 0
  s : Vector Word 32 := Vector.replicate 32 0
  lc : Vector Loop 8 := Vector.replicate 8 {}
  m : Vector (BitVec 256) 8 := Vector.replicate 8 (-1)
  t : Vector TReg 8 := Vector.replicate 8 {}
  layer : BitVec 16 := 0
  oper : BitVec 16 := 0
  seed : Word := 0
  fetch : BitVec 32 := 0
  tail : BitVec 32 := 0
  latched : Option (BitVec 32 × List Word) := none
  headWb : BitVec 32 := 0
  st : SlotSt := .idle
  wait : Wait := .none
  waitLimit : Nat := 0
  stt : Nat := 0
  ringBase : Nat := 0
  ringLog : Nat := 0
  fin : Option (Nat × Word) := none
  waitFrom : Nat := 0
  flt : Option FaultInfo := none
  lastPc : BitVec 32 := 0
  lastW : Word := 0
  lands : Vector Landing 8 := Vector.replicate 8 {}
  redirects : List Redirect := []
  progs : Vector (Option Prog) 4 := Vector.replicate 4 none
  visible : Option StatTile := none
  under : Option StatTile := none
  underReady : Bool := true
  ldsSince : Bool := false
deriving DecidableEq, Repr

/-! ### Cores (04) -/

/-- The state of an accumulator slot (R200). -/
inductive AccSt where
  | free
  | live
  | persistent
  | lost
deriving DecidableEq, Repr

/-- An accumulator tile: 64 × 64 codes, the checksum column, the sticky saturation flag (R110, R195, R198). -/
structure AccTile where
  int : Bool
  vals : List Nat
  chk : List Int
  sat : Bool
deriving DecidableEq, Repr

/-- An accumulator slot: its state, the recorded width, and its tile, or its two 16-bit halves (R198, R200). -/
structure AccSlot where
  st : AccSt := .free
  w16 : Bool := false
  lo : Option AccTile := none
  hi : Option AccTile := none
deriving DecidableEq, Repr

/-- A physical core: accumulator store by array × 8 + slot, which slot issues, times of raised check events, whether the
core is fenced, its incarnation and whether a stale request has been dropped since (R649), the spare it moves to, whether for a self-test
(R731), and the elapsed count at which that began (R643), and what the counters of 17 have seen. -/
structure CoreSt where
  acc : SMap AccSlot := []
  runBf : Bool := false
  achk : List Nat := []
  fenced : Bool := false
  inc : BitVec 16 := 1
  stale : Bool := false
  moving : Option (Nat × Bool) := none
  moveAt : Nat := 0
  clockStopped : Bool := false
  stretched : Nat := 0
deriving DecidableEq, Repr

/-! ### Instructions and commands under way -/

/-- What kind of operation is outstanding (R153, R161): a copy, with whether it writes host memory; a remote operation; a
push; an update run; a collective or permute; a placement request. -/
inductive OutKind where
  | copy (host : Bool)
  | remote
  | push
  | run
  | coll
  | place
deriving DecidableEq, Repr

/-- An operation that a member has issued and that has not completed. -/
structure Outst where
  id : Nat
  slot : Nat
  ctx : BitVec 16
  kind : OutKind
deriving DecidableEq, Repr

/-- A pushed tile on its way (R276): its operation and the pushing slot. -/
structure Flight where
  id : Nat
  slot : Nat
  arr : Arrival
deriving DecidableEq, Repr

/-- A signal given and not yet applied (R153): `set` for SYNC.SET; `deps` are the operations it covers; `slot` is the
signalling slot, if a member. -/
structure PendSig where
  obj : Nat
  val : Word
  set : Bool
  part : Nat
  slot : Option Nat
  deps : List Nat
deriving DecidableEq, Repr

/-- What the completion of a queued command does (R332, R333, R563): the issuing slot with its context, partition, fetch
index, word and tags; the flag write, the signal, the completion record, NOFAULT. -/
structure Comp where
  id : Nat
  slot : Nat
  ctx : BitVec 16
  part : Nat
  pc : BitVec 32
  word : Word
  layer : BitVec 16
  oper : BitVec 16
  flag : Option (Nat × Word) := none
  sig : Option Nat := none
  crec : Option Nat := none
  nofault : Bool := false
deriving DecidableEq, Repr

/-- What a copy engine does for a command (R326 to R330). -/
inductive CopyKind where
  | copy (fr : Bool) (src len : Nat)
  | copyi (payload : List Byte)
  | gesso (fmt frames : Nat)
deriving DecidableEq, Repr

/-- A command of a copy engine (R326 to R333), with its destination address and direction (R162: 0 stores, 1 HBM, 2 host
memory). -/
structure CopyCmd where
  comp : Comp
  kind : CopyKind
  dst : Nat
  dir : Nat
deriving DecidableEq, Repr

/-- Who waits for a PROMOTE: the command register, a member's XFER.PLACE (R337), or a member whose RUN asked for it (R412). -/
inductive PromWho where
  | reg
  | member (c : Comp)
  | run (slot : Nat)
deriving DecidableEq, Repr

/-- A residency copy (up) or writeback in progress (R299, R303), with the PROMOTEs pending on it. -/
structure ResCopy where
  obj : BitVec 32
  up : Bool
  pend : List PromWho
deriving DecidableEq, Repr

/-- An open stage-queue end (R315 to R319): frames queued at a sender, head and occupancy of segment and ring, freed slots
whose credits are not yet returned. -/
structure SqEnd where
  recv : Bool
  sends : List (Frame × Nat)
  segHd : Nat
  segN : Nat
  ringHd : Nat
  ringN : Nat
  owed : Nat
deriving DecidableEq, Repr

/-- A pin (R406): its entry number, the shard block's physical address, the step, the partition, the pinned frames, and the landing record's
address and length. -/
structure Pin where
  entry : Nat
  blk : Nat
  step : Nat
  part : Nat
  frames : List Nat
  record : Nat × Nat
deriving DecidableEq, Repr

/-- A RUN that has computed its weight tiles, or delivered them on the Near path, and has not completed (R405 to R413): the
pin's shard block and step; the address of the Near flag; with GACC_EN, the address of the accumulator and Q as an FP32 code;
with SIG, the object and the value; with MIRROR = 1, whether every frame sent to the partner has been acknowledged, and
whether the RUN no longer waits (R598); whether it has released its pin and waits for the acknowledgement. -/
structure RunSt where
  id : Nat
  slot : Nat
  ctx : BitVec 16
  part : Nat
  die : Nat
  blk : Nat
  step : Nat
  flag : Option Nat := none
  gacc : Option (Nat × Nat) := none
  sobj : Option (Nat × Word) := none
  acked : Bool := true
  unmir : Bool := false
  waits : Bool := false
deriving DecidableEq, Repr

/-! ### Host die (09) -/

/-- A host-core access that waits for the exit from Doze (R694). -/
inductive Held where
  | reg (off size : Nat) (v : Word)
  | mem (hart : Nat) (a : HostAccess)
deriving DecidableEq, Repr

/-- The host die's state that no register shows: UCIe modules that retrain, the drain in progress (with a restart or without),
whether the host cores are stopped, how often they have been reset and which have halted on a double trap (R448), pending MSI
identities as (hart, file, identity), PCIe ports whose link is down, the outcome of the last access: bytes, access fault,
poison; reservations as line + 1 by hart; firmware faults recorded (R41); accesses that Doze holds. -/
structure HostSt where
  retrain : List Nat := []
  drain : Option Bool := none
  coresStopped : Bool := false
  coreResets : Nat := 0
  doubleTrap : Nat := 0
  imsic : List (Nat × Nat × Nat) := []
  pcieDown : List Nat := []
  resp : List Byte := []
  accessFault : Bool := false
  busPoison : Bool := false
  reserve : SMap Nat := []
  fwFaults : Nat := 0
  held : List Held := []
deriving DecidableEq, Repr

/-! ### Ports (10) -/

/-- What a frame in a transmit queue is: a Cragil packet, with the die whose transit buffer holds it (R526), a hello, or a
frame of the host transmit ring, with TSREQ (R507). -/
inductive TxKind where
  | pkt (p : Packet) (transit : Option Nat)
  | hello
  | ring (ts : Bool)
deriving DecidableEq, Repr

/-- A frame in a transmit queue (R480, R489): its queue, the LINC at handoff, its bytes without FCS. -/
structure TxFrame where
  q : Nat
  linc : Nat
  kind : TxKind
  bytes : List Byte
deriving DecidableEq, Repr

/-- A frame of the transport in a port's receive buffer (R488): the packet, its priority, its bytes. -/
structure RxEntry where
  pkt : Packet
  prio : Nat
  bytes : Nat
deriving DecidableEq, Repr

/-- A port: the rates that R476 removed, SERIAL and source MAC address of the recorded hello (R472, R483), whether a hello
has passed the check since CHECK began, the last hello, whether coefficients of a last UP are held (R475), transmit
queues, PAUSE and PFC frames to send (R490), the receive buffer, uncorrectable codewords by time (R478), the frames
dropped for a full ring since the last slot (R505), and the last frame sent. -/
structure Port where
  removed : Nat := 0
  peer : Option (Word × Nat) := none
  passed : Bool := false
  hello : Option Hello := none
  coeff : Bool := false
  txq : List TxFrame := []
  ctl : List (List Byte) := []
  rx : List RxEntry := []
  unc : List (Nat × Nat) := []
  lastTx : List Byte := []
deriving DecidableEq, Repr

/-- The ports, and the DROPS word of the next receive-ring slot (R505). -/
structure LinkSt where
  ports : SMap Port := []
  drops : Nat := 0
deriving DecidableEq, Repr

/-! ### Transport (11) -/

/-- What a remote command is: a write, a tile add, a read into frames or 64-byte lines of a virtual range, an atomic with
the address its old value goes to and the size, a stage-queue frame or credit (R317, R319), a contribution of a collective to
a position (R582), other frames of the collective engine, and an aperture access of a host core (R570). -/
inductive RemKind where
  | write
  | rtadd
  | read (fr : Bool) (dst : Nat) (len : Nat)
  | atomic (ret : Option Nat) (size : Nat)
  | stage
  | contrib (coll pos : Nat)
  | engine
  | aper (slot : Nat) (size : Nat)
deriving DecidableEq, Repr

/-- A remote command of a queue pair (R553 to R565): packets still to be acknowledged, responses still to come in bytes,
the parts received as (offset, bytes), the offset of a bad part, whether a packet has been sent, tiles refused, its status, and
the frames or bytes moved. -/
structure RemCmd where
  comp : Comp
  kind : RemKind
  die : Nat
  left : Nat
  want : Nat := 0
  got : List (Nat × Nat) := []
  stopAt : Option Nat := none
  sent : Bool := false
  refused : Nat := 0
  status : Nat := 0
  moved : Nat := 0
deriving DecidableEq, Repr

/-- A request packet of a queue pair (R536, R542): its command, the physical address it is read from again when resent,
and whether a selective acknowledgement marks it. -/
structure SentPkt where
  pkt : Packet
  cmd : Nat
  src : Option Nat := none
  sacked : Bool := false
deriving DecidableEq, Repr

/-- An open queue pair (R528): the words of its descriptor, in the error state ERR_STATUS, ERR_PSN and ERR_TIME, and its
transport state: commands in issue order, packets not
yet given a PSN, packets unacknowledged, requests that wait for their response, the PSN that an RNR holds (R544), packets
applied and not yet acknowledged (R541), the results of the last 8 atomics (R540). -/
structure QpSt where
  err : Option (Nat × Nat × Nat) := none
  die : Nat := 0
  part : Nat := 0
  peerPkg : Nat := 0
  peerPart : Nat := 0
  peerQp : Nat := 0
  key : Nat := 0
  kgen : Nat := 0
  epoch : Nat := 0
  win : Nat := 0
  ip : Nat := 0
  mac : Nat := 0
  spsn : Nat := 0
  una : Nat := 0
  epsn : Nat := 0
  retry : Nat := 0
  cmds : List RemCmd := []
  queue : List SentPkt := []
  sent : List SentPkt := []
  waiting : List SentPkt := []
  rnr : Option Nat := none
  unacked : Nat := 0
  results : List (Nat × Word) := []
deriving DecidableEq, Repr

/-- A packet that the transport holds for a lane (R493), with the die whose transit buffer it fills. -/
structure OutPkt where
  pkt : Packet
  transit : Option Nat := none
deriving DecidableEq, Repr

/-- The transport: open queue pairs by context, the contexts cached on each die in order of use (R532), fetches under way,
the context-miss buffer and the reorder pool by queue pair, packets for this package itself (R556), packets held for a lane,
window entries in use (R548), and the revocation that has not completed (R550). -/
structure XptSt where
  qps : SMap (Option QpSt) := []
  cache : List (List Nat) := [[], []]
  fetching : List Nat := []
  miss : List (Nat × Packet) := []
  pool : List (Nat × Packet) := []
  loop : List Packet := []
  out : List OutPkt := []
  wins : SMap (List Word) := []
  revoking : Option (Nat × Nat) := none
deriving DecidableEq, Repr

/-- How a contribution to a position ended: tiles refused, tiles sent, status. -/
structure ColRes where
  coll : Nat
  pos : Nat
  refused : Nat
  total : Nat
  status : Nat
deriving DecidableEq, Repr

/-- A collective that has been issued and has not completed (R576 to R591): the member (with NOFAULT), the physical address
of its descriptor, the queue pairs of the line's members, the descriptor's fields, the line length and the member's position, whether the member contributes; the
step it is in (0 reduce, 1 gather); S and Q as masks of positions; what HELD will say; its landings as (position of the
shard, entry); the contributions that have not ended, by key (a position; 16 + it for a held one; 32 + it for one sent
again, R604); the owners whose grant it waits for and, as an owner, the indices it has still to let in, whether one has been,
and the union of their bitmaps (R591); alternates of lost positions as (position, alternate); the first status other than
0x00. -/
structure Coll where
  comp : Comp
  die : Nat
  desc : Nat
  qps : List Nat
  kind : Nat
  job : Nat
  axis : Nat
  pol : Nat
  order : Bool
  fmt : Fmt
  sfmt : Fmt
  land : Nat
  step : Nat
  series : Nat
  deadline : Nat
  ltag : Nat
  frames : Nat
  src : Nat
  dst : Nat
  recva : Nat
  pbuf : Nat
  obj : Nat
  val : Word
  len : Nat
  pos : Nat
  gives : Bool
  stage : Nat := 0
  s : Nat := 0
  q : Nat := 0
  lastStep : Nat := 0
  held : Nat := 0
  lands : List (Nat × Nat) := []
  owed : List Nat := []
  grants : List Nat := []
  turns : List Nat := []
  begun : Bool := false
  union : List Nat := []
  alts : List (Nat × Nat) := []
  lost : Nat := 0
  err : Nat := 0
deriving DecidableEq, Repr

/-- An entry of a permute table that is still to be read at this member (R593): destination position, frames, source and
destination addresses. -/
structure PermEntry where
  dpos : Nat
  frames : Nat
  saddr : Nat
  daddr : Nat
deriving DecidableEq, Repr

/-- A permute that has not completed (R592, R593): its entries not yet read, the number of sends that have not ended, the
frames that have still to arrive as (queue pair, address), whether COL_PDONE has been sent, its first bad status. -/
structure PermCmd where
  comp : Comp
  die : Nat
  desc : Nat
  qps : List Nat
  job : Nat
  axis : Nat
  len : Nat
  pos : Nat
  obj : Nat
  val : Word
  unread : List PermEntry
  out : Nat := 0
  awaited : List (Nat × Nat) := []
  told : Bool := false
  err : Nat := 0
deriving DecidableEq, Repr

/-- A mirror frame that the partner has not acknowledged (R594 to R596): sequence number, physical address, the RUN that
waits for it. -/
structure MirFrame where
  seq : Nat
  pa : Nat
  run : Nat
deriving DecidableEq, Repr

/-- The collective engines: collectives and permutes in issue order, ended contributions, frames of other members that have
arrived over a job's queue pair as (queue pair, address), COL_GRANT packets as (queue pair, AUX) and COL_PDONE packets by queue pair, until they are used; the last
mirror sequence number, the frames unacknowledged, and as receiver the next number expected and the later ones received, by
queue pair; the packages declared lost (R599), the notices handled as job, axis, position, epoch (R602), and the series whose
refused contributions a member holds, as member, job, axis, SERIES (R588, R611). -/
structure ColSt where
  colls : List Coll := []
  perms : List PermCmd := []
  results : List ColRes := []
  arrived : List (Nat × Nat) := []
  granted : List (Nat × Nat) := []
  pdone : List Nat := []
  mseq : Nat := 0
  unacked : List MirFrame := []
  mseen : SMap (Nat × List Nat) := []
  declared : List Nat := []
  heard : List (Nat × Nat × Nat × Nat) := []
  holds : List (Nat × Nat × Nat × Nat) := []
deriving DecidableEq, Repr

/-! ### Identity, trust and management (01, 13) -/

/-- The identity fuses (R56 to R58, R63, R630; 13_partitions_and_trust.md, SEC_STATUS). -/
structure Fuses where
  variant : Nat := 0
  stepping : Nat := 1
  hbmRated : Nat := 1
  serial : Word := 0
  hbmPresent : Nat := 0xFF
  good0 : Nat := 0xFFFFF
  good1 : Nat := 0xFFFFF
  lifecycle : Nat := 1
  revoked : Nat := 0
  svn : Nat := 0
deriving DecidableEq, Repr

/-- How the last management request was answered (R622, R626, R627): not yet, done, PLDM ERROR_NOT_READY, PLDM
ALREADY_IN_UPDATE_MODE, or an ERROR response with a code. -/
inductive Answer where
  | none
  | ok
  | notReady
  | inUpdate
  | error (code : Nat)
deriving DecidableEq, Repr

/-- What the management side holds: the fuses, the two image banks of the SPI NOR (R632), an activation that waits
(R719), whether private JTAG instructions are open and how often the nonce has advanced (R637), whether a TLS connection has
been accepted (R623), the step that a TEARDOWN waits in (R619), the channel that holds the update agent (R627), and the last answer with its bytes. -/
structure SecSt where
  fuse : Fuses := {}
  bank0 : Option Image := none
  bank1 : Option Image := none
  activate : Option Channel := none
  unlocked : Bool := false
  nonceAt : Nat := 0
  tls : Bool := false
  tear : Nat := 0
  agent : Option Channel := none
  code : Answer := .none
  resp : List Byte := []
deriving DecidableEq, Repr

/-! ### Power and start (15, 16, 18) -/

/-- Persistent items and training results that no register holds (R701): GPIO directions (R769), the SPD serial numbers of the
last start (R727), the units whose training results are retained, a PKG_NUMBER that waits for the next warm reset (R62). -/
structure Keep where
  gpioOut : BitVec 16 := 0
  serials : List Word := []
  hbmRes : Nat := 0
  ddrRes : Nat := 0
  ucieRes : Nat := 0
  number : Option Word := none
deriving DecidableEq, Repr

/-- One copy of the Persistent image in the SPI NOR (R705): sequence number, whether every block passes its check, the /ret
fields that differ from their Reset value, and the other items. -/
structure NorCopy where
  seq : Nat := 0
  valid : Bool := true
  regs : SMap Word := []
  keep : Keep := {}
deriving DecidableEq, Repr

/-- Supplies, signals and the always-on controller: auxiliary and main input good, conversion on, in Sleep, RESET_N low; the
cause bits of the next start; since a main loss or a trip (`off`) nothing runs until main good; the compute dies off in Doze; signals driven (POWER_FAIL_N, THERMTRIP_N, FAULT_N, GPIO levels); a warm reset that waits for
the sensors (R675); the host cores' thermal steps (R674); the SPI NOR copies. -/
structure PwrSt where
  aux : Bool := true
  main : Bool := false
  on : Bool := false
  asleep : Bool := false
  rstLow : Bool := false
  cause : Nat := 0
  powerFail : Bool := true
  thermTrip : Bool := false
  faultN : Bool := false
  gpioLvl : BitVec 16 := 0
  resetWait : Bool := false
  hostSlow : Nat := 0
  off : Bool := false
  diesOff : Bool := false
  norA : NorCopy := {}
  norB : NorCopy := {}
  keep : Keep := {}
deriving DecidableEq, Repr

/-- The time base (R679 to R683): package time in ns and its fraction in units of 2^−40 ns, the elapsed count in ns, COARSE
in units of 2^−32 ns. -/
structure AonSt where
  ns : Nat := 0
  frac : Nat := 0
  elapsed : Nat := 0
  coarse : Nat := 0
deriving DecidableEq, Repr
/-- An operation of PKG_TEST_CMD (R730 to R738): TEST or CALIBRATE, its unit, whether it waits, the elapsed count at its
start, the physical core it vacated, the interruption of the swap. -/
structure TestOp where
  cal : Bool
  kind : Nat
  die : Nat
  unit : Nat
  waits : Bool
  since : Nat
  swap : Nat := 0
deriving DecidableEq, Repr

/-- Bring-up (R709 to R721): the elapsed counts at which the start and the running stages began; units that train, and those
that failed, as (stage, unit); what the SPD hubs report and the speed in MT/s of the used channels (R435); compute dies out of service; logical cores that no bind may name
(R732), as (die, core); endpoints subscribed to START_STAGE, the messages sent to them, and the test or calibration under way;
control-core watchdog expiries by die × 4 + core, and those fenced (R655, R656). -/
structure StartSt where
  dieOut : BitVec 2 := 0
  noBind : List (Nat × Nat) := []
  began : Nat := 0
  stageAt : List (Nat × Nat) := []
  training : List (Nat × Nat) := []
  failed : List (Nat × Nat) := []
  full : List (Nat × Nat) := []
  spd : List (Option Spd) := []
  ddrSpeed : Nat := 0
  subs : List (BitVec 16) := []
  msgs : List (BitVec 16 × List Byte) := []
  test : Option TestOp := none
  wdogs : SMap Nat := []
  ccFenced : List Nat := []
  ccInc : SMap Nat := []
deriving DecidableEq, Repr

/-- A package event waiting to be posted (R660 to R662). -/
structure Ev where
  code : Nat
  sev : Nat
  die : Nat := 2
  pcore : Nat := 31
  lcore : Nat := 31
  bf : Bool := false
  part : Nat := 0
  ctx : Nat := 0
  layer : Nat := 0
  oper : Nat := 0
  inc : Nat := 0
  d0 : Nat := 0
  d1 : Nat := 0
  d2 : Nat := 0
  d3 : Nat := 0
deriving DecidableEq, Repr

/-- A trace record in a die's buffer (R754, R755): the partition it describes and its four words. -/
structure TraceRec where
  part : Nat
  words : List Word
deriving DecidableEq, Repr

/-- What a slot's next sample record counts from (R752): the counts at its last record, its time, and whether the tags have
changed since. -/
structure SampleSt where
  cyc : List Nat := []
  cen : List Nat := []
  time : Nat := 0
  mixed : Bool := false
deriving DecidableEq, Repr

/-- A node of the wait-for graph (R759): its kind, a slot key for a member, the resource identifier. -/
structure WfgNode where
  kind : Nat
  key : Nat
  res : Nat
deriving DecidableEq, Repr

/-- A wait-for edge (R759): WAITS from a member to a resource, FROM from a resource to a party. -/
structure WfgEdge where
  src : WfgNode
  dst : WfgNode
  waits : Bool
  age : Nat
deriving DecidableEq, Repr

/-- A wait-for graph being assembled (R757, R758): the trigger, the member that tripped it, the first pass. -/
structure Wfg where
  trigger : Nat
  member : Nat
  start : Nat
  first : List WfgEdge
deriving DecidableEq, Repr

/-- Observation: event sequence and queue, events that the management controller has not yet acknowledged (R663), trace
buffers and the records lost while one is full, sample bases, ring drops, the context (+ 1) of the stream that last signalled a
sync object (R759), and the graph being assembled. -/
structure DbgSt where
  eventSeq : Nat := 0
  evq : List Ev := []
  bmc : List (List Word) := []
  trace : SMap (List TraceRec) := []
  gap : SMap Nat := []
  sampled : SMap SampleSt := []
  drops : SMap Nat := []
  signaller : SMap Nat := []
  wfg : Option Wfg := none
deriving DecidableEq, Repr

/-! ### The block -/

/-- The package: everything but the queue of waiting commands.  Keys: a core is die × 20 + physical core; a slot is
core × 2 (+ 1 for backfill); a copy engine is die × 8 + number, 0 to 3 inbound and 4 to 7 outbound; a stage-queue end is
die × 64 + number.  `ctxCmds` are the aborts under way, as die (2 for
one that a TEARDOWN asked for), context, whether the slots are freed. -/
structure Blk where
  free : Nat := 0
  mem : Mem := {}
  regs : SMap Word := []
  slots : SMap Slot := []
  cores : SMap CoreSt := []
  outst : List Outst := []
  nextId : Nat := 0
  ctxCmds : List (Nat × Nat × Bool) := []
  sigs : List PendSig := []
  flights : List Flight := []
  engines : SMap (List CopyCmd) := []
  resid : List ResCopy := []
  sqs : SMap (Option SqEnd) := []
  pins : List Pin := []
  runs : List RunSt := []
  host : HostSt := {}
  link : LinkSt := {}
  xpt : XptSt := {}
  col : ColSt := {}
  sec : SecSt := {}
  pwr : PwrSt := {}
  aon : AonSt := {}
  start : StartSt := {}
  dbg : DbgSt := {}
deriving DecidableEq, Repr

/-- Why a step can stop for good.  No meaning of this model raises a fault: what the spec calls a fault, a refusal or an
error is a state that it describes. -/
inductive Fault where
  /-- Never raised: the type is here for the interface (safe). -/
  | none
deriving DecidableEq, Repr

/-- Why a step has no next state. -/
inductive Refusal where
  /-- Raised by the dispatcher alone, for a command whose meaning is not written (safe: the model stops). -/
  | notModelled (mnemonic : String)
  /-- Raised by `execJtagInstruction` for a private JTAG instruction after an accepted debug unlock, whose effect on the
  debug unit R637 does not give (safe: the model stops). -/
  | privateJtag
deriving DecidableEq, Repr

/-- The machine: the package and the commands that wait for it, first in, first out. -/
structure State where
  pending : List Instr
  blk : Blk
deriving DecidableEq, Repr

/-- The registers whose value at a cold power-on differs from the Reset column of their field map, because the spec gives it as
"fuse" or "see text": PKG_IDENT, PKG_CAP and SEC_STATUS show the fuses (R56 to R58, R630; log entry 4), the start is counted
(PKG_START_CTRL), AON_LOST.COLD is set (R703), and MEM_SEAL.GEN has advanced (R352). -/
def resetRegs : SMap Word := [
  (Reg.pkgIdent, 0x4860011000000000), (Reg.pkgCap, 0xFF0F0FFF00000030), (Reg.pkgStartCtrl, 0x10000), (Reg.aonLost, 0x1000000000000),
  (Reg.memSeal, 1), (Reg.secStatus, 0x1000000000000000)]

/-- The package right after a cold power-on (R698): the auxiliary input is good and the main input is not, POWER_FAIL_N is asserted
(R773), and bring-up has not run a stage.  The fuses and the SPI NOR's contents are log entries 4 and 5. -/
def Blk.reset : Blk := { regs := resetRegs, pwr := { norA := { seq := 1 } } }

/-- The machine right after reset: the package after a cold power-on, and no command waiting. -/
def State.reset : State := { pending := [], blk := Blk.reset }

end Sys2Proof.Machine
end

