-- ==== Sys2Proof/Machine/Ops.lean ====
section
/-! DEFINITION. The named operations every meaning is built from: registers, topology, memory with its two codes and merge
buffers, events and interrupts, translation, sync signals (01, 03, 06, 07, 09, 13, 14). -/
namespace Sys2Proof.Machine

/-- An action of the package: it may end with a status code of R22.  Code 0x100 means that the command cannot start yet and
leaves everything as it was. -/
abbrev Act := EStateM Nat Blk

/-- The code of "not yet": what the command needs is not free (R331, R406, R450). -/
def notYet : Nat := 0x100

/-- End with a status unless a condition holds. -/
def need (c : Bool) (st : Nat) : Act Unit := if c then pure () else throw st

/-- Run an action from a block, keeping what it did; its status is dropped. -/
def Act.exec' (a : Act Unit) (b : Blk) : Blk :=
  match a b with
  | .ok _ t => t
  | .error _ t => t

/-- The status an action ends with (0x00 when it ends normally) and the block it leaves. -/
def Act.status {α : Type} (a : Act α) : Act Nat := fun b =>
  match a b with
  | .ok _ t => .ok 0 t
  | .error e t => .ok e t

/-- Run an action whose status does not matter to the caller. -/
def quietly {α : Type} (a : Act α) : Act Unit := do
  let _ ← a.status

/-! ### Registers -/

/-- The stored value of the register at an offset (R16, R42). -/
def Blk.reg (b : Blk) (off : Nat) : Word := sget (regReset off) b.regs off
/-- A register field. -/
def Blk.fld (b : Blk) (off hi lo : Nat) : Nat := bits (b.reg off) hi lo
/-- Store a register whole. -/
def Blk.setReg (b : Blk) (off : Nat) (v : Word) : Blk := { b with regs := sset (regReset off) b.regs off v }
/-- Store a register field. -/
def Blk.setFld (b : Blk) (off hi lo v : Nat) : Blk := b.setReg off (setBits (b.reg off) hi lo v)
/-- Add to a count field that stops at its maximum. -/
def Blk.count (b : Blk) (off hi lo n : Nat) : Blk := b.setFld off hi lo (satAdd (hi - lo + 1) (b.fld off hi lo) n)

def setReg (off : Nat) (v : Word) : Act Unit := modify (·.setReg off v)
def setFld (off hi lo v : Nat) : Act Unit := modify (·.setFld off hi lo v)
def countFld (off hi lo n : Nat) : Act Unit := modify (·.count off hi lo n)

/-- A fresh free value's index (log entry 14). -/
def fresh : Act Nat := do
  let b ← get
  set { b with free := b.free + 1 }
  pure b.free

/-- Package time in nanoseconds (R679). -/
def Blk.now (b : Blk) : Nat := b.aon.ns % 2 ^ 64

/-- R679, R682: `n` nanoseconds pass: the elapsed count advances by `n`, and package time, while its unit runs, by
1 + FREQ × 2^−40 ns for each. -/
def Blk.elapse (b : Blk) (n : Nat) : Blk :=
  let t : Int := b.aon.frac + (n : Int) * (2 ^ 40 + sext (b.fld Reg.aonTimeCtrl 31 0) 32)
  if b.pwr.on then { b with aon := { b.aon with
    ns := b.aon.ns + (t / 2 ^ 40).toNat, frac := (t % 2 ^ 40).toNat, elapsed := b.aon.elapsed + n } }
  else { b with aon := { b.aon with elapsed := b.aon.elapsed + n } }

/-! ### Topology -/

def coreKey (d p : Nat) : Nat := d * 20 + p
def slotKey (d p : Nat) (bf : Bool) : Nat := (d * 20 + p) * 2 + b2n bf
def keyDie (k : Nat) : Nat := k / 40
def keyPhys (k : Nat) : Nat := k / 2 % 20
def keyBf (k : Nat) : Bool := decide (k % 2 = 1)

def Blk.slot (b : Blk) (k : Nat) : Slot := sget {} b.slots k
def Blk.setSlot (b : Blk) (k : Nat) (s : Slot) : Blk := { b with slots := sset {} b.slots k s }
def Blk.core (b : Blk) (k : Nat) : CoreSt := sget {} b.cores k
def Blk.setCore (b : Blk) (k : Nat) (c : CoreSt) : Blk := { b with cores := sset {} b.cores k c }
def modSlot (k : Nat) (f : Slot → Slot) : Act Unit := modify (fun b => b.setSlot k (f (b.slot k)))
def modCore (k : Nat) (f : CoreSt → CoreSt) : Act Unit := modify (fun b => b.setCore k (f (b.core k)))

/-- The sparing-map entry of a logical core (R67). -/
def Blk.smapEntry (b : Blk) (d l : Nat) : Nat := bits (b.reg (Reg.pkgSmap (2 * d + l / 8))) (8 * (l % 8) + 7) (8 * (l % 8))
/-- The physical core of a logical core, if mapped (R67). -/
def Blk.physOf (b : Blk) (d l : Nat) : Option Nat :=
  let e := b.smapEntry d l
  if e.testBit 7 then some (e % 32) else none
/-- The logical core that a physical core runs as, if it is active (R64). -/
def Blk.logOf (b : Blk) (d p : Nat) : Option Nat := (List.range 16).find? (fun l => decide (b.physOf d l = some p))
/-- Is the compute die out of service (R65, R654, R715)? -/
def Blk.dieOut (b : Blk) (d : Nat) : Bool := b.start.dieOut.getLsbD d
/-- Is the host link of a compute die down (R446)? -/
def Blk.linkDown (b : Blk) (d : Nat) : Bool := (b.reg Reg.hceLinkSts).getLsbD (56 + d)
/-- Is BF_EN set on a core (R163)? -/
def Blk.bfEn (b : Blk) (d p : Nat) : Bool := (b.reg (Reg.coreBfCtrl d p)).getLsbD 16
/-- Is HOLD set (R450)? -/
def Blk.hold (b : Blk) : Bool := (b.reg Reg.hceRestart).getLsbD 33

/-- R643: is a core moving to a spare? -/
def Blk.moving (b : Blk) (d p : Nat) : Bool := (b.core (coreKey d p)).moving.isSome

/-! ### Trace records and tag filter (17) -/

/-- R746, R763: do the tags pass the filter? -/
def Blk.tagPass (b : Blk) (layer oper : BitVec 16) : Bool :=
  let f := b.reg Reg.cntFilter
  !bit f 63 || (decide ((bits f 47 32 ^^^ layer.toNat) &&& bits f 31 16 = 0) &&
    decide ((bits f 15 0 ^^^ oper.toNat) &&& b.fld Reg.cntOmask 15 0 = 0))

/-- R754: a record enters its die's trace buffer, or is discarded and counted when the buffer is full. -/
def Blk.traceAdd (b : Blk) (d : Nat) (r : TraceRec) : Blk :=
  let q := sget [] b.dbg.trace d
  if q.length < 16384 then { b with dbg := { b.dbg with trace := sset [] b.dbg.trace d (q ++ [r]) } }
  else ({ b with dbg := { b.dbg with gap := sset 0 b.dbg.gap d (sget 0 b.dbg.gap d + 1) } }).count Reg.dbgTrcSts
    (32 * d + 31) (32 * d) 1

/-- R754: is a happening of this type with these tags traced? -/
def Blk.traces (b : Blk) (ty : Nat) (layer oper : BitVec 16) : Bool :=
  bit (b.reg Reg.dbgTrcCtrl) 63 && bit (b.reg Reg.dbgTrcCtrl) (32 + ty) && b.tagPass layer oper

/-- R755: word 1 of a record. -/
def recWord1 (kind qual d l slot part ctx : Nat) : Nat :=
  kind <<< 56 ||| qual <<< 55 ||| d <<< 52 ||| l <<< 47 ||| slot <<< 46 ||| part <<< 36 ||| ctx <<< 20

/-- R754 to R756: trace a happening of a slot. -/
def Blk.trace (b : Blk) (k ty : Nat) (pc : BitVec 32) (payload : Nat) : Blk :=
  let s := b.slot k
  if b.traces ty s.layer s.oper then
    b.traceAdd (keyDie k) ⟨s.part.toNat, [word b.now,
      word (recWord1 ty (b.fld Reg.aonTimeCtrl 63 63) (keyDie k) s.log (k % 2) s.part.toNat s.ctx.toNat),
      word (s.layer.toNat <<< 48 ||| s.oper.toNat <<< 32 ||| pc.toNat), word payload]⟩
  else b

/-- What a physical address reaches (R28, R37). -/
inductive Region where
  | ddr
  | hbm (d : Nat)
  | store (d p : Nat)
  | cluster (d c : Nat)
  | regs
  | pcie
  | aperture
  | nothing
deriving DecidableEq, Repr

/-- The base of the HBM range of a die (R28). -/
def hbmBase (d : Nat) : Nat := 0x040000000000 + d * 0x8000000000
/-- The usable top of a range: 0, 1 HBM of the dies, 2 DDR5 (R346). -/
def Blk.top (b : Blk) (i : Nat) : Nat := bits (b.reg (Reg.memTop i)) 47 13 * 8192
/-- Physical view of a local store (R37). -/
def localBase (d p : Nat) : Nat := 0x080000000000 + d * 0x10000000 + p * 0x400000
def clusterBase (d c : Nat) : Nat := 0x080008000000 + d * 0x10000000 + c * 0x1000000
def aliasBase (d l : Nat) : Nat := 0x080080000000 + d * 0x10000000 + l * 0x400000

/-- R37 to R39: the physical address with the logical alias resolved, and the region it reaches; unpopulated parts, cores
that are not active and dies out of service reach nothing. -/
def Blk.resolve (b : Blk) (a : Nat) : Nat × Region :=
  if a < 0x020000000000 then (a, if a < b.top 2 then .ddr else .nothing)
  else if 0x040000000000 ≤ a ∧ a < 0x050000000000 then
    let d := (a - 0x040000000000) / 0x8000000000
    (a, if a < b.top d ∧ !b.dieOut d then .hbm d else .nothing)
  else if 0x080000000000 ≤ a ∧ a < 0x080100000000 then
    let o := a - 0x080000000000
    let al := decide (0x80000000 ≤ o)
    let o := o % 0x80000000
    let d := o / 0x10000000
    let o := o % 0x10000000
    if 2 ≤ d ∨ b.dieOut d then (a, .nothing)
    else if al then
      if 16 * 0x400000 ≤ o ∨ 0x300000 ≤ o % 0x400000 then (a, .nothing)
      else match b.physOf d (o / 0x400000) with
        | some p => (localBase d p + o % 0x400000, .store d p)
        | none => (a, .nothing)
    else if o < 0x8000000 then
      if 20 * 0x400000 ≤ o ∨ 0x300000 ≤ o % 0x400000 then (a, .nothing)
      else if (b.logOf d (o / 0x400000)).isSome then (a, .store d (o / 0x400000)) else (a, .nothing)
    else
      let o := o - 0x8000000
      if 5 * 0x1000000 ≤ o ∨ 0x800000 ≤ o % 0x1000000 then (a, .nothing) else (a, .cluster d (o / 0x1000000))
  else if 0x0F0000000000 ≤ a ∧ a < 0x0F0009000000 then (a, .regs)
  else if 0x100000000000 ≤ a ∧ a < 0x400000000000 then (a, .pcie)
  else if 0x400000000000 ≤ a ∧ a < 0x800000000000 then (a, .aperture)
  else (a, .nothing)

/-- Is the region a memory tier (HBM or DDR5)? -/
def Region.isTier : Region → Bool
  | .ddr => true
  | .hbm _ => true
  | _ => false

/-- Is it a local or cluster store? -/
def Region.isStore : Region → Bool
  | .store _ _ => true
  | .cluster _ _ => true
  | _ => false

/-- The error source of an address (R31, R36, R338, R364). -/
def Blk.source (b : Blk) (a : Nat) (r : Region) : Nat :=
  match r with
  | .hbm d => 4 * d + (a / 8192) % 4
  | .ddr =>
    let n := popcount (b.fld Reg.pkgCap 23 16) 8
    if n = 8 then 8 + (a / 8192) % 8
    else if n = 4 then 8 + 2 * ((a / 8192) % 4)
    else if n = 2 then 8 + 4 * ((a / 8192) % 2)
    else 8
  | .store d _ => 16 + d
  | .cluster d _ => 16 + d
  | _ => 20

/-- R643, step 2: is it the local store of a core that is moving? -/
def Blk.heldStore (b : Blk) : Region → Bool
  | .store d p => b.moving d p
  | _ => false

/-! ### Bytes of memory -/

/-- What a byte reads as that nothing has written (DESIGN CHOICE, unsafe: log entry 1). -/
abbrev Memory.unlisted : Byte := 0

/-- The bytes of `n` addresses from `a`, given the listed cells of that range. -/
def expand : Nat → Nat → List Host.Cell → List Byte
  | 0, _, _ => []
  | n + 1, a, [] => Memory.unlisted :: expand n (a + 1) []
  | n + 1, a, (k, v) :: r => if k = a then v :: expand n (a + 1) r else Memory.unlisted :: expand n (a + 1) ((k, v) :: r)

/-- Read `n` bytes of memory. -/
def memRead (m : List Host.Cell) (a n : Nat) : List Byte :=
  expand n a (m.filter (fun c => decide (a ≤ c.1 ∧ c.1 < a + n)))

/-- The cells of a byte string laid from `a`: a byte that reads as an unlisted one is not listed. -/
def cellsOf : Nat → List Byte → List Host.Cell
  | _, [] => []
  | a, v :: r => if v = Memory.unlisted then cellsOf (a + 1) r else (a, v) :: cellsOf (a + 1) r

/-- Write bytes into memory, keeping the canonical form. -/
def memWrite (m : List Host.Cell) (a : Nat) (bs : List Byte) : List Host.Cell :=
  m.filter (fun c => decide (c.1 < a)) ++ cellsOf a bs ++ m.filter (fun c => decide (a + bs.length ≤ c.1))

/-- The canonical form of memory: addresses strictly rising, no entry equal to what an unlisted byte reads as. -/
abbrev Memory.wf (m : List Host.Cell) : Prop :=
  m.Pairwise (fun x y => x.1 < y.1) ∧ ∀ c ∈ m, c.2 ≠ Memory.unlisted

def Blk.putBytes (b : Blk) (a : Nat) (bs : List Byte) : Blk := { b with mem := { b.mem with cells := memWrite b.mem.cells a bs } }
def Blk.fmeta (b : Blk) (f : Nat) : FrameMeta := sget {} b.mem.fmeta f
def Blk.setFmeta (b : Blk) (f : Nat) (m : FrameMeta) : Blk := { b with mem := { b.mem with fmeta := sset {} b.mem.fmeta f m } }

/-! ### The frame's codes (07) -/

/-- One step of the CRC-16 of R342: polynomial 0x8BB7, no reflection. -/
def crcBit (c : BitVec 16) : BitVec 16 := if c.msb then (c <<< 1) ^^^ 0x8BB7 else c <<< 1
def crcByte (c : BitVec 16) (x : Byte) : BitVec 16 :=
  crcBit (crcBit (crcBit (crcBit (crcBit (crcBit (crcBit (crcBit (c ^^^ (x.zeroExtend 16 <<< 8)))))))))
/-- R342: the inner check value of line `i` of the frame at physical address `pa`. -/
def innerCheck (pa i : Nat) (line : List Byte) : BitVec 16 :=
  (natLe 8 ((pa / 8192) * 256 + i) ++ line).foldl crcByte 0xFFFF

/-- Multiplication by x in GF(2^16) with the field polynomial of R344. -/
def gfX (a : BitVec 16) : BitVec 16 := if a.msb then (a <<< 1) ^^^ 0x100B else a <<< 1
def gfMulGo : Nat → BitVec 16 → BitVec 16 → BitVec 16 → BitVec 16
  | 0, _, _, r => r
  | n + 1, a, b, r => gfMulGo n (gfX a) (b >>> 1) (if b.getLsbD 0 then r ^^^ a else r)
def gfMul (a b : BitVec 16) : BitVec 16 := gfMulGo 16 a b 0
/-- α^n. -/
def gfPow : Nat → BitVec 16
  | 0 => 1
  | n + 1 => gfX (gfPow n)
/-- The coefficients of g(x) below its leading one, highest power first (R344). -/
def rsGen : Nat → List (BitVec 16)
  | 0 => []
  | n + 1 =>
    let g := rsGen n
    List.zipWith (fun x y => x ^^^ gfMul (gfPow n) y) (g ++ [0]) (1 :: g)
/-- R344: the check symbols of a message, highest power first. -/
def rsCheck (c : Nat) (msg : List (BitVec 16)) : List (BitVec 16) :=
  let g := rsGen c
  msg.foldl (fun r s =>
    let fb := s ^^^ r.headD 0
    List.zipWith (fun x y => x ^^^ gfMul fb y) (r.drop 1 ++ [0]) g) (List.replicate c 0)

/-- The 64 bytes of a header (R286). -/
def headerBytes (h : Header) : List Byte :=
  let w0 := h.fmt.toNat <<< 60 ||| h.klog2.toNat <<< 56 ||| h.part.toNat <<< 46 ||| b2n h.sat <<< 45 ||| b2n h.poison <<< 44
  let w2 := h.stamp.toNat <<< 32 ||| h.layer.toNat <<< 16 ||| h.oper.toNat
  wordsBytes [word w0, h.empty, word w2, 0, 0, 0, 0, 0]

/-- The header that 64 bytes hold. -/
def headerOf (l : List Byte) : Header :=
  let w0 := wordAt l 0
  let w2 := wordAt l 16
  { fmt := BitVec.ofNat 4 (bits w0 63 60), klog2 := BitVec.ofNat 4 (bits w0 59 56), part := BitVec.ofNat 10 (bits w0 55 46),
    sat := bit w0 45, poison := bit w0 44, empty := wordAt l 8, stamp := BitVec.ofNat 32 (bits w2 63 32),
    layer := BitVec.ofNat 16 (bits w2 31 16), oper := BitVec.ofNat 16 (bits w2 15 0) }

/-- The stored metadata bytes of a frame, as R339 lays them out at level A, before storage errors. -/
def metaBytes (pa : Nat) (data : List Byte) (m : FrameMeta) : List Byte :=
  let all := padTo 8192 data ++ padTo 512 m.side ++ headerBytes m.hdr
  let inner := (List.range 137).flatMap (fun i => natLe 2 (innerCheck pa i ((all.drop (64 * i)).take 64)).toNat)
  let msg := (chunk 2 4384 all).map (fun p => BitVec.ofNat 16 (leNat p))
  padTo 1024 (padTo 512 m.side ++ headerBytes m.hdr ++ inner ++ natLe 2 m.gen.toNat
    ++ (rsCheck 32 msg).flatMap (fun s => natLe 2 s.toNat))

/-- Does the inner check of line `i` fail under this error pattern?  The CRC is linear, so it fails exactly when the CRC of
the flipped bits differs from the flipped bits of the check value (R343; log entry 15). -/
def lineFails (errs : List Nat) (i : Nat) : Bool :=
  let es := (errs.filter (fun e => decide (e / 528 = i))).map (· % 528)
  if es.isEmpty then false
  else
    let n := es.foldl (fun a e => if e < 512 then a ^^^ (1 <<< e) else a) 0
    let c := es.foldl (fun a e => if e < 512 then a else a ^^^ (1 <<< (e - 512))) 0
    decide (((natLe 64 n).foldl crcByte 0).toNat ≠ c)

/-- The outer decoder's view of an error pattern: failed lines, erasures and symbol errors outside them (R347). -/
structure CodeView where
  failed : List Nat
  erased : Nat
  symErrs : Nat
  syndrome : Bool
deriving DecidableEq, Repr

def codeView (errs : List Nat) : CodeView :=
  let lines := (errs.map (· / 528)).eraseDups
  let failed := lines.filter (fun i => decide (i < 137) && lineFails errs i)
  let syms := (errs.filter (fun e => decide (e % 528 < 512) || decide (137 ≤ e / 528)))
  let outside := ((syms.filter (fun e => !failed.contains (e / 528))).map (fun e => (e / 528) * 33 + (e % 528) / 16)).eraseDups
  ⟨failed, 32 * failed.length, outside.length, !syms.isEmpty⟩

/-- R345: the check symbols of a strength level. -/
def levelSymbols (l : Nat) : Nat := 32 * 2 ^ l

/-- The strength level in force for a region. -/
def Blk.level (b : Blk) : Region → Nat
  | .hbm d => bits (b.reg Reg.memStrength) (2 * d + 1) (2 * d)
  | _ => bits (b.reg Reg.memStrength) 5 4

/-- Flip the given bit positions (of the whole frame's 8,768 bytes, lines of 512 bits) in a byte string. -/
def flipBits (l : List Byte) (ps : List Nat) : List Byte :=
  ps.foldl (fun a p => setNth a (p / 8) (nth a 0 (p / 8) ^^^ (1 <<< (p % 8)))) l

/-- The flipped data bits of lines in [lo, hi), as bit positions counted from line `lo`. -/
def dataFlips (errs : List Nat) (lo hi : Nat) : List Nat :=
  (errs.filter (fun e => decide (lo ≤ e / 528 ∧ e / 528 < hi ∧ e % 528 < 512))).map (fun e => (e / 528 - lo) * 512 + e % 528)

/-! ### Events, interrupts, error counting (07, 09, 14) -/

/-- Queue an event for posting at the end of the command (R660). -/
def post (e : Ev) : Act Unit := modify (fun b => { b with dbg := { b.dbg with evq := b.dbg.evq ++ [e] } })

/-- An MSI write to an interrupt file; identity 0 sends nothing (R422). -/
def Blk.msi (b : Blk) (hart file eiid : Nat) : Blk :=
  if eiid = 0 ∨ b.host.imsic.contains (hart, file, eiid) then b
  else { b with host := { b.host with imsic := b.host.imsic ++ [(hart, file, eiid)] } }

/-- R422, R424: one MSI of package interrupt source `n`. -/
def Blk.msiSource (b : Blk) (n : Nat) : Blk :=
  let w := b.reg (Reg.hceMsi n)
  if bit w 63 then b.msi (bits w 23 19) (bits w 18 16) (bits w 10 0) else b

def sendMsi (n : Nat) : Act Unit := modify (·.msiSource n)

/-- R366: record an event in ECC_LAST. -/
def eccLast (kind : Nat) (scrub : Bool) (syms a : Nat) : Word :=
  word (kind <<< 61 ||| b2n scrub <<< 60 ||| (min syms 4095) <<< 48 ||| ((a / 64) % 2 ^ 42) <<< 6)

/-- The die of an error source (R364). -/
def sourceDie (n : Nat) : Nat := if n < 8 then n / 4 else if 16 ≤ n ∧ n < 20 then n % 2 else 2

/-- R365, R366, R368: a correctable event of source `n`. -/
def correctable (n : Nat) (scrub : Bool) (syms a : Nat) : Act Unit := do
  countFld (Reg.eccCnt n) 23 0 1
  countFld (Reg.eccCnt n) 63 48 1
  let b ← get
  if b.fld Reg.eccBucketCtrl 15 0 < b.fld (Reg.eccCnt n) 63 48 then
    setFld Reg.eccSts n n 1
    setReg (Reg.eccLast n) (eccLast 1 scrub syms a)
    setFld (Reg.eccCnt n) 63 48 0
    if bit (b.reg Reg.eccBucketCtrl) 16 then sendMsi 2
    post { code := 0x0E, sev := 2, die := sourceDie n, d0 := n, d1 := (eccLast 1 scrub syms a).toNat }

/-- R367, R368: an uncorrectable frame or word of source `n`. -/
def uncorrectable (n : Nat) (scrub : Bool) (syms a : Nat) : Act Unit := do
  let b ← get
  setFld Reg.eccSts (32 + n) (32 + n) 1
  countFld (Reg.eccCnt n) 35 24 1
  setReg (Reg.eccLast n) (eccLast 2 scrub syms a)
  if bit (b.reg Reg.eccBucketCtrl) 17 then sendMsi 2
  post { code := 0x0E, sev := 2, die := sourceDie n, d0 := n, d1 := (eccLast 2 scrub syms a).toNat }

/-! ### Frames -/

/-- The current seal generation (R352). -/
def Blk.gen (b : Blk) : BitVec 16 := BitVec.ofNat 16 (b.fld Reg.memSeal 15 0)

/-- Is the frame unwritten under R353? -/
def Blk.unwritten (b : Blk) (f : Nat) : Bool := decide ((b.fmeta f).gen ≠ b.gen)

/-- The line of an error pattern that a record names: the first failed line of the data, else the frame's first line
(log entry 17). -/
def errAddr (f : Nat) (v : CodeView) : Nat := f * 8192 + 64 * (((v.failed.filter (fun i => decide (i < 128))).head?).getD 0)

/-- R347 to R349, R369: decode a tier frame that holds storage errors: correct it, or write it back poisoned with the data
as read.  Answers whether it could be corrected. -/
def decodeFrame (f : Nat) (r : Region) (scrub : Bool) : Act Bool := do
  let b ← get
  let m := b.fmeta f
  let v := codeView m.errs
  let n := b.source (f * 8192) r
  if v.erased + 2 * v.symErrs ≤ levelSymbols (b.level r) then
    set (b.setFmeta f { m with errs := [] })
    correctable n scrub (v.erased + v.symErrs) (errAddr f v)
    pure true
  else
    let d := flipBits (memRead b.mem.cells (f * 8192) 8192) (dataFlips m.errs 0 128)
    let s := flipBits (padTo 512 m.side) (dataFlips m.errs 128 136)
    let h := headerOf (flipBits (headerBytes m.hdr) (dataFlips m.errs 136 137))
    set ((b.putBytes (f * 8192) d).setFmeta f { m with hdr := { h with poison := true }, side := s, errs := [] })
    uncorrectable n scrub (v.erased + v.symErrs) (errAddr f v)
    pure false

/-- R377: the bits that an armed injection inverts in the frame being stored, as error positions. -/
def Blk.injected (b : Blk) (f : Nat) : Option (List Nat) :=
  let w := b.reg Reg.eccInject
  if bit w 63 ∧ bits w 47 13 = f then
    let l0 := bits w 12 6
    some (if bits w 61 60 = 0 then (List.range (bits w 59 56)).map (fun i => ((l0 + i) % 137) * 528)
      else if bits w 61 60 = 1 then (List.range 137).map (· * 528) else [])
  else none

/-- Store a frame of a tier with fresh codes and seal (R351, R377). -/
def storeTier (f : Nat) (data side : List Byte) (h : Header) : Act Unit := do
  let b ← get
  let b' := (b.putBytes (f * 8192) (padTo 8192 data)).setFmeta f
    { hdr := h, side := side, gen := b.gen, errs := (b.injected f).getD [] }
  set (if (b.injected f).isSome then b'.setFld Reg.eccInject 63 63 0 else b')

/-- The open merge entry of a frame. -/
def Blk.entry (b : Blk) (f : Nat) : Option MergeEntry := b.mem.merge.find? (fun e => decide (e.frame = f))
def dropEntry (f : Nat) : Act Unit :=
  modify (fun b => { b with mem := { b.mem with merge := b.mem.merge.filter (fun e => decide (e.frame ≠ f)) } })

/-- The bytes of an entry laid over frame data. -/
def layOver (data : List Byte) (bytes : List Host.Cell) : List Byte :=
  (List.range 8192).zipWith (fun i x => match bytes.find? (fun c => decide (c.1 = i)) with
    | some c => c.2
    | none => x) (padTo 8192 data)

/-- R358, R362: close an entry by read-modify-write. -/
def closeEntry (e : MergeEntry) : Act Unit := do
  dropEntry e.frame
  let b ← get
  let r := (b.resolve (e.frame * 8192)).2
  if b.unwritten e.frame then
    countFld (Reg.eccCnt (b.source (e.frame * 8192) r)) 47 36 1
    storeTier e.frame (layOver [] e.bytes) [] { poison := true }
  else
    if (codeView (b.fmeta e.frame).errs).syndrome || !(codeView (b.fmeta e.frame).errs).failed.isEmpty then
      let _ ← decodeFrame e.frame r false
    let b ← get
    let m := b.fmeta e.frame
    storeTier e.frame (layOver (memRead b.mem.cells (e.frame * 8192) 8192) e.bytes) m.side m.hdr

/-- R360: close the frame's entry if one is open. -/
def closeFrame (f : Nat) : Act Unit := do
  match (← get).entry f with
  | some e => closeEntry e
  | none => pure ()

/-- R357, R362: write a frame whose entry holds every byte. -/
def completeMerge (e : MergeEntry) : Act Unit := do
  let b ← get
  let m := b.fmeta e.frame
  if b.unwritten e.frame then
    dropEntry e.frame
    storeTier e.frame (layOver [] e.bytes) [] {}
  else if (codeView m.errs).failed.any (fun i => decide (128 ≤ i)) then closeEntry e
  else
    dropEntry e.frame
    let s := flipBits (padTo 512 m.side) (dataFlips m.errs 128 136)
    let h := headerOf (flipBits (headerBytes m.hdr) (dataFlips m.errs 136 137))
    storeTier e.frame (layOver [] e.bytes) (if (dataFlips m.errs 128 136).isEmpty then m.side else s)
      (if (dataFlips m.errs 136 137).isEmpty then m.hdr else h)

/-- Put bytes into an entry, later bytes replacing earlier ones (R356). -/
def putCells (l : List Host.Cell) (off : Nat) (bs : List Byte) : List Host.Cell :=
  l.filter (fun c => decide (c.1 < off)) ++ List.zipWith (fun i x => (i, x)) (List.range' off bs.length) bs
    ++ l.filter (fun c => decide (off + bs.length ≤ c.1))

/-- R355 to R359: a sub-frame write to a tier frame enters the merge buffer of its controller. -/
def mergeWrite (f off : Nat) (bs : List Byte) : Act Unit := do
  let b ← get
  let ctl := b.source (f * 8192) (b.resolve (f * 8192)).2
  match b.entry f with
  | some e =>
    let e' := { e with bytes := putCells e.bytes off bs }
    set { b with mem := { b.mem with merge := b.mem.merge.map (fun (x : MergeEntry) => if x.frame = f then e' else x) } }
    if e'.bytes.length = 8192 then completeMerge e'
  | none =>
    let mine := b.mem.merge.filter (fun x => decide (x.ctl = ctl))
    if 64 ≤ mine.length then
      match mine.head? with
      | some o => closeEntry o
      | none => pure ()
    let e : MergeEntry := ⟨ctl, f, putCells [] off bs⟩
    modify (fun b => { b with mem := { b.mem with merge := b.mem.merge ++ [e] } })
    let b ← get
    let n := (b.mem.merge.filter (fun x => decide (x.ctl = ctl))).length
    setFld Reg.memMerge 23 16 (max n (b.fld Reg.memMerge 23 16))
    if e.bytes.length = 8192 then completeMerge e

/-- R433: bring host-die copies of the HBM lines of [a, a+n) back into memory; lines that a write covers whole are
discarded instead. -/
def snoop (a n : Nat) (write : Bool) : Act Unit := do
  let b ← get
  let hit := b.mem.hostDirty.filter (fun l => decide (l.1 < a + n ∧ a < l.1 + 64))
  if hit.isEmpty then pure ()
  else
    set { b with mem := { b.mem with hostDirty := b.mem.hostDirty.filter (fun l => !decide (l.1 < a + n ∧ a < l.1 + 64)) } }
    hit.forM (fun l =>
      if write && decide (a ≤ l.1 ∧ l.1 + 64 ≤ a + n) then pure ()
      else mergeWrite (l.1 / 8192) (l.1 % 8192) l.2)

/-- R430, R431: the device caches give up their modified copies of the lines of [a, a+n). -/
def devClean (a n : Nat) : Act Unit :=
  modify (fun b => { b with mem := { b.mem with devDirty := b.mem.devDirty.filter (fun l => !decide (l.2 < a + n ∧ a < l.2 + 64)) } })

/-- A write to [a, a+n) ends the reservations of the host cores on its lines (R431). -/
def unreserve (a n : Nat) : Act Unit :=
  modify (fun b => { b with host := { b.host with reserve := b.host.reserve.filter (fun x => decide (x.2 * 64 ≤ a ∨ a + n ≤ (x.2 - 1) * 64)) } })

/-- R348, R353, R369: read a whole frame of a tier or store at its resolved address: the frame and the status of the
read (0x00, 0x05 poisoned or unwritten, 0x06 uncorrectable). -/
def readFrameAt (a : Nat) (r : Region) (scrub : Bool := false) : Act (Frame × Nat) := do
  let f := a / 8192
  if r.isTier then
    snoop a 8192 false
    closeFrame f
    let b ← get
    if b.unwritten f then
      countFld (Reg.eccCnt (b.source a r)) 47 36 1
      pure ({ hdr := { poison := true } }, 5)
    else
      let ok ← if (codeView (b.fmeta f).errs).syndrome then decodeFrame f r scrub else pure true
      let b ← get
      let m := b.fmeta f
      pure ({ hdr := m.hdr, side := m.side, data := memRead b.mem.cells a 8192 },
        if !ok then 6 else if m.hdr.poison then 5 else 0)
  else
    let b ← get
    let m := b.fmeta f
    if !m.errs.isEmpty then
      set (b.setFmeta f { m with hdr := { m.hdr with poison := true }, errs := [] })
    pure ({ hdr := m.hdr, side := m.side, data := memRead b.mem.cells a 8192 },
      if !m.errs.isEmpty then 6 else if m.hdr.poison then 5 else 0)

/-- R343: read `n` bytes of one frame by lines, at a resolved address. -/
def readLinesAt (a n : Nat) (r : Region) : Act (List Byte × Nat) := do
  let f := a / 8192
  if r.isTier then
    snoop a n false
    closeFrame f
    let b ← get
    if b.unwritten f then
      countFld (Reg.eccCnt (b.source a r)) 47 36 1
      pure (List.replicate n 0, 5)
    else
      let m := b.fmeta f
      let l0 := (a % 8192) / 64
      let l1 := ((a % 8192) + n + 63) / 64
      let bad := (codeView m.errs).failed.any (fun i => decide (l0 ≤ i ∧ i < l1))
      let ok ← if bad then decodeFrame f r false else pure true
      let b ← get
      let m := b.fmeta f
      let lines := flipBits (memRead b.mem.cells (f * 8192 + 64 * l0) (64 * (l1 - l0))) (dataFlips m.errs l0 l1)
      pure ((lines.drop (a % 64)).take n,
        if !ok then 6 else if m.hdr.poison || b.mem.poisonLines.any (fun l => decide (a / 64 ≤ l ∧ l ≤ (a + n - 1) / 64)) then 5 else 0)
  else
    let b ← get
    let m := b.fmeta f
    if !m.errs.isEmpty then
      set (b.setFmeta f { m with hdr := { m.hdr with poison := true }, errs := [] })
    pure (memRead b.mem.cells a n, if !m.errs.isEmpty then 6 else if m.hdr.poison then 5 else 0)

/-- R351, R361: write a whole frame at a resolved address. -/
def writeFrameAt (a : Nat) (r : Region) (x : Frame) : Act Unit := do
  let f := a / 8192
  if r.isTier then
    dropEntry f
    snoop a 8192 true
    devClean a 8192
    unreserve a 8192
    modify (fun b => { b with mem := { b.mem with poisonLines := b.mem.poisonLines.filter (fun l => decide (l / 128 ≠ f)) } })
    storeTier f x.data x.side x.hdr
  else
    modify (fun b => (b.putBytes a (padTo 8192 x.data)).setFmeta f { hdr := x.hdr, side := x.side })

/-- Write bytes inside one frame at a resolved address: tiers through the merge buffer, stores at once. -/
def writeLinesAt (a : Nat) (r : Region) (bs : List Byte) : Act Unit := do
  if r.isTier then
    snoop a bs.length true
    unreserve a bs.length
    mergeWrite (a / 8192) (a % 8192) bs
    modify (fun b => { b with mem := { b.mem with poisonLines := b.mem.poisonLines.filter (fun l =>
      !decide (a ≤ 64 * l ∧ 64 * l + 64 ≤ a + bs.length)) } })
  else modify (·.putBytes a bs)

/-- The pieces of [a, a+n) that lie in single frames. -/
def pieces : Nat → Nat → Nat → List (Nat × Nat)
  | 0, _, _ => []
  | fuel + 1, a, n =>
    if n = 0 then []
    else
      let k := min n (8192 - a % 8192)
      (a, k) :: pieces fuel (a + k) (n - k)

def piecesOf (a n : Nat) : List (Nat × Nat) := pieces (n / 8192 + 2) a n

/-- Mark a frame poisoned (R369, R371). -/
def poisonFrame (a : Nat) : Act Unit := do
  let b ← get
  let r := (b.resolve a).2
  if r.isTier && b.unwritten (a / 8192) then pure ()
  else set (b.setFmeta (a / 8192) { b.fmeta (a / 8192) with hdr := { (b.fmeta (a / 8192)).hdr with poison := true } })

/-- Who makes an engine access: a compute die, or the package's firmware and host die; only a copy engine reaches PCIe. -/
structure Acc where
  die : Option Nat
deriving DecidableEq, Repr

/-- R40, R447: resolve an engine's address: 0x02 where R28 gives it no access, 0x0E to the DDR5 tier when the die's host
link is down. -/
def engineAddr (w : Acc) (a : Nat) : Act (Nat × Region) := do
  let b ← get
  let (a', r) := b.resolve a
  match r with
  | .ddr =>
    match w.die with
    | some d => if b.linkDown d then throw 0x0E else pure (a', r)
    | none => pure (a', r)
  | .hbm _ => pure (a', r)
  | .store _ _ => pure (a', r)
  | .cluster _ _ => pure (a', r)
  | _ => throw 0x02

/-- R406, R407: does a range inside one frame touch the frames or the record of a pin? -/
def Blk.pinned (b : Blk) (a : Nat) (n : Nat := 8192) : Bool :=
  b.pins.any (fun p => p.frames.contains (a / 8192) || decide (p.record.1 < a + n ∧ a < p.record.1 + p.record.2))

/-- Read bytes at a physical address as an engine: throws the status of a failed read. -/
def readPa (w : Acc) (a n : Nat) : Act (List Byte) :=
  (piecesOf a n).foldlM (fun acc p => do
    let (a', r) ← engineAddr w p.1
    let (bs, st) ← readLinesAt a' p.2 r
    need (st = 0) st
    pure (acc ++ bs)) []

/-- R430: after a sub-frame write of [a, a+n) a compute die's device cache holds its DDR5 lines modified (log entry 53). -/
def Blk.devTouch (b : Blk) (d a n : Nat) : Blk :=
  let rest := b.mem.devDirty.filter (fun x => decide (x.2 + 64 ≤ a ∨ a + n ≤ x.2))
  let lines := (List.range ((a % 64 + n + 63) / 64)).map (fun i => (d, a / 64 * 64 + 64 * i))
  { b with mem := { b.mem with devDirty := rest ++ lines } }

/-- Write bytes at a physical address as an engine. -/
def writePa (w : Acc) (a : Nat) (bs : List Byte) : Act Unit := do
  let ps := piecesOf a bs.length
  ps.forM (fun p => do
    let (a', _) ← engineAddr w p.1
    need (!(← get).pinned a' p.2) 0x02)
  let _ ← ps.foldlM (fun rest p => do
    let (a', r) ← engineAddr w p.1
    writeLinesAt a' r (rest.take p.2)
    match r, w.die with
    | .ddr, some d => modify (·.devTouch d a' p.2)
    | _, _ => pure ()
    pure (rest.drop p.2)) bs

/-- Read a little-endian word of a table as the package does (R788: 0x02, 0x05 or 0x06 on failure). -/
def readWord (a : Nat) : Act Word := do
  let bs ← readPa ⟨none⟩ a 8
  pure (wordAt bs 0)

/-- The package's own words of a table, `n` of them. -/
def readWords (a n : Nat) : Act (List Word) := do
  let bs ← readPa ⟨none⟩ a (8 * n)
  pure ((chunk 8 n bs).map (fun c => word (leNat c)))

/-- R785: write back a word of a table that the runtime placed; an address that cannot be reached posts event 0x14. -/
def tableWrite (table a : Nat) (v : Word) (id : Nat) : Act Unit := do
  let r := ((← get).resolve a).2
  if r.isTier then quietly (writePa ⟨none⟩ a (natLe 8 v.toNat))
  else post { code := 0x14, sev := 2, d0 := table, d1 := a, d2 := id }

/-! ### The change log (13) -/

/-- R628: CHANNEL and PRINCIPAL of a register write. -/
def srcWho : Src → Nat × Nat
  | .host => (1, 0)
  | .control => (0, 0)

/-- R628: CHANNEL and PRINCIPAL of a management channel. -/
def chanWho : Channel → Nat × Nat
  | .firmware => (0, 0)
  | .host => (1, 0)
  | .i3c e => (2, e.toNat)
  | .smbus e => (3, e.toNat)
  | .service c => (4, c.toNat)

/-- R628: one record of the change log. -/
def changeLog (who : Nat × Nat) (action off : Nat) (old new : Word) : Act Unit := do
  let b ← get
  let n := b.fld Reg.secLogIdx 31 0
  let ws := [word b.now, word (who.1 <<< 56 ||| action <<< 48 ||| who.2 <<< 32 ||| off), old, new]
  modify (fun b => (List.zipWith (fun k w => (k, w)) (List.range 4) ws).foldl
    (fun b kw => b.setReg (Reg.secLog (4 * (n % 1024) + kw.1)) kw.2) b)
  setFld Reg.secLogIdx 31 0 (n + 1)

/-- R624, R628: a write to the register at `off`, recorded when it changes a /ret field or AON_ALARM (an Always-on setting).  A
host register write of that class is refused while SEC_POLICY denies class C1 to the host registers. -/
def logged (who : Nat × Nat) (off : Nat) (a : Act Unit) : Act Unit := do
  let b ← get
  let old := b.reg off
  a
  let new := (← get).reg off
  let kept := if off = Reg.aonAlarm then -1 else ((regDesc off).map (·.ret)).getD 0
  if (old ^^^ new) &&& kept ≠ 0 then
    if who.1 = 1 && !bit (b.reg Reg.secPolicy) 0 then
      set b
      changeLog who 0x09 off 0 0
    else changeLog who 0x01 off old new

/-! ### Doze and register writes (15) -/

/-- Is the package entering, in or leaving Doze (AON_PWR_STS.STATE)? -/
def Blk.dozing (b : Blk) : Bool := decide (2 ≤ b.fld Reg.aonPwrSts 63 61)

/-- R691, R692: a wake event while the package enters or is in Doze starts the exit; an entry that it abandons will have
completed with 0x01. -/
def dozeWake (src : Nat) : Act Unit := do
  let st := (← get).fld Reg.aonPwrSts 63 61
  if st = 2 ∨ st = 3 then
    if st = 2 then setFld Reg.aonPwrSts 55 48 0x01
    setFld Reg.aonPwrSts 63 61 4
    setFld Reg.aonPwrSts 47 44 src
    if src = 4 then setFld Reg.aonAlarm 63 63 0

/-- R694: the register blocks to which Doze holds host accesses: both compute dies and the fabric block. -/
def heldOff (off : Nat) : Bool := decide (0x1000000 ≤ off ∧ off < 0x3000000) || decide (0x4000000 ≤ off ∧ off < 0x5000000)

/-- Hold an access until the exit from Doze (R694). -/
def holdAccess (h : Held) : Act Unit := do
  modify (fun b => { b with host := { b.host with held := b.host.held ++ [h] } })
  dozeWake 1

/-- R628, R694: a register write of 8 bytes: held while the package dozes, recorded when it changes a /ret field. -/
def regCmd (src : Src) (off : Nat) (v : Word) (a : Act Unit) : Act Unit := do
  if src = .host && (← get).dozing && heldOff off then holdAccess (.reg off 8 v)
  else logged (srcWho src) off a

/-! ### Posting events (14) -/

/-- R661: the record of an event. -/
def Ev.record (e : Ev) (now seq : Nat) : List Word :=
  [word now,
   word (e.code <<< 56 ||| e.sev <<< 54 ||| e.die <<< 52 ||| e.pcore <<< 47 ||| e.lcore <<< 42 ||| b2n e.bf <<< 41
     ||| e.part <<< 31 ||| e.ctx % 2 ^ 16),
   word (e.layer <<< 48 ||| e.oper <<< 32 ||| e.inc <<< 16), word seq, word e.d0, word e.d1, word e.d2, word e.d3]

/-- R756: a package event in the trace, for partition 0 (log entry 18). -/
def Blk.traceEv (b : Blk) (e : Ev) (seq : Nat) : Blk :=
  if b.traces 9 (BitVec.ofNat 16 e.layer) (BitVec.ofNat 16 e.oper) then
    b.traceAdd (if e.die < 2 then e.die else 0) ⟨0, [word b.now,
      word (recWord1 9 (b.fld Reg.aonTimeCtrl 63 63) e.die e.lcore (b2n e.bf) 0 e.ctx),
      word (e.layer <<< 48 ||| e.oper <<< 32), word (e.code <<< 56 ||| seq % 2 ^ 32)]⟩
  else b

/-- The number of slots of the event ring (PKG_EVT_CFG.LOG2: 6 to 15, others as 6). -/
def Blk.evtLog2 (b : Blk) : Nat := let l := b.fld Reg.pkgEvtCfg 3 0; if 6 ≤ l then l else 6

/-- R663, R665: an event in the retained fault log and, from SEV 2 on, on its way to the management controller. -/
def retainEvent (e : Ev) : Act (List Word) := do
  let b ← get
  let rec' := e.record b.now (b.dbg.eventSeq + 1)
  let bmc := if 2 ≤ e.sev then b.dbg.bmc ++ [rec'] else b.dbg.bmc
  set { b with dbg := { b.dbg with eventSeq := b.dbg.eventSeq + 1, bmc := bmc } }
  if 1 ≤ e.sev then
    let n := b.fld Reg.pkgFlogIdx 31 0
    modify (fun b => (List.zipWith (fun k w => (k, w)) (List.range 8) rec').foldl
      (fun b kw => b.setReg (Reg.pkgFlog (8 * (n % 512) + kw.1)) kw.2) b)
    setFld Reg.pkgFlogIdx 31 0 (n + 1)
  pure rec'

/-- R660, R663, R665, R785: write one event to the ring, the retained log and the management controller. -/
def postNow (e : Ev) : Act Unit := do
  let seq := (← get).dbg.eventSeq + 1
  let rec' ← retainEvent e
  modify (·.traceEv e seq)
  let b ← get
  if bit (b.reg Reg.pkgEvtCfg) 63 then
    let prod := b.fld Reg.pkgEvtIdx 31 0
    let cons := b.fld Reg.pkgEvtIdx 63 32
    let slots := 2 ^ b.evtLog2
    let a := bits (b.reg Reg.pkgEvtCfg) 47 12 * 4096 + (prod % slots) * 64
    if slots ≤ (prod + 2 ^ 32 - cons) % 2 ^ 32 then countFld Reg.pkgFltSts 15 0 1
    else if ((b.resolve a).2).isTier then
      quietly (writePa ⟨none⟩ a (wordsBytes rec'))
      setFld Reg.pkgEvtIdx 31 0 (prod + 1)
      sendMsi 5
    else
      countFld Reg.pkgFltSts 15 0 1
      if e.code ≠ 0x14 then post { code := 0x14, sev := 2, d0 := 5, d1 := a }

/-- Post what is queued, for as long as the fuel lasts. -/
def flushGo : Nat → Blk → Blk
  | 0, b => b
  | n + 1, b =>
    match b.dbg.evq with
    | [] => b
    | e :: r => flushGo n ((postNow e).exec' { b with dbg := { b.dbg with evq := r } })

/-- The end of a command: every event it raised has been posted.  A post can raise an event only by correcting or poisoning a
frame that holds storage errors, of which an armed injection can make one more, or once when the ring cannot take it; which
bounds the posts. -/
def settle (b : Blk) : Blk := flushGo (2 * (b.dbg.evq.length + b.mem.fmeta.length + 1)) b

/-- The next state of a command whose effect on the package is `f`. -/
def State.upd (s : State) (f : Blk → Blk) : Host.Outcome State Fault Refusal :=
  .next { s with blk := settle (f s.blk) }

/-- The next state of a command that performs an action, whatever its status. -/
def State.act (s : State) (a : Act Unit) : Host.Outcome State Fault Refusal := s.upd a.exec'

/-- The next state of a command that is a register write. -/
def State.regw (s : State) (src : Src) (off : Nat) (v : Word) (a : Act Unit) : Host.Outcome State Fault Refusal :=
  s.act (regCmd src off v a)

/-! ### Translation (01) -/

/-- The permission an access needs (R47). -/
inductive Perm where
  | rd
  | wr
  | ex
deriving DecidableEq, Repr

def Perm.bit : Perm → Nat
  | .rd => 61
  | .wr => 60
  | .ex => 59

/-- One level of the walk of R46 to R49: level 1 to 3, `fuel` levels left. -/
def walkGo : Nat → Nat → Nat → Nat → Perm → Act Nat
  | 0, _, _, _, _ => throw 0x0A
  | fuel + 1, level, base, va, p => do
    let sh := if level = 1 then 30 else if level = 2 then 21 else 16
    let idx := if level = 1 then va >>> 30 else if level = 2 then (va >>> 21) % 512 else (va >>> 16) % 32
    let e ← readWord (base + 8 * idx)
    need (bit e 63) 0x02
    need (bits e 58 48 = 0 ∧ bits e 7 0 = 0) 0x0A
    let a := bits e 47 8 * 256
    if bit e 62 then
      need (a % 2 ^ sh = 0) 0x0A
      need (bit e p.bit) 0x02
      pure (a + va % 2 ^ sh)
    else
      need (level < 3) 0x0A
      need (a % (if level = 1 then 4096 else 256) = 0) 0x0A
      walkGo fuel (level + 1) a va p

/-- R45 to R49: the physical address of a partition's virtual address. -/
def translate (part va : Nat) (p : Perm) : Act Nat := do
  need (va < 2 ^ 42) 0x02
  let b ← get
  walkGo 3 1 (bits (b.reg (Reg.prtPart part)) 47 15 * 32768) va p

/-- Read bytes at a partition's virtual address as the package does. -/
def vread (w : Acc) (part va n : Nat) (p : Perm := .rd) : Act (List Byte) :=
  (piecesOf va n).foldlM (fun acc q => do
    let a ← translate part q.1 p
    let bs ← readPa w a q.2
    pure (acc ++ bs)) []

/-- Write bytes at a partition's virtual address: every piece is translated before the first is written. -/
def vwrite (w : Acc) (part va : Nat) (bs : List Byte) : Act Unit := do
  let as' ← (piecesOf va bs.length).mapM (fun q => do pure ((← translate part q.1 .wr), q.2))
  let _ ← as'.foldlM (fun rest q => do
    writePa w q.1 (rest.take q.2)
    pure (rest.drop q.2)) bs

/-! ### Sync objects (03) -/

/-- The owner of a sync object, if it is assigned (R176). -/
def Blk.syncOwner (b : Blk) (obj : Nat) : Option Nat :=
  let w := b.reg (Reg.coreSyncOwn (obj / 8192) (obj % 8192))
  if bit w 63 then some (bits w 9 0) else none
/-- The counter of a sync object. -/
def Blk.syncVal (b : Blk) (obj : Nat) : Word := b.reg (Reg.coreSyncVal (obj / 8192) (obj % 8192))
/-- R154: the wait for `v` is satisfied. -/
def syncOk (count v : Word) : Bool := !(count - v).msb

/-- Wake every slot whose wait on this object is satisfied. -/
def Blk.wakeSync (b : Blk) (obj : Nat) : Blk :=
  b.slots.foldl (fun b ks => match ks.2.wait with
    | .sync o v =>
      if o = obj ∧ syncOk (b.syncVal obj) v then
        (b.setSlot ks.1 { ks.2 with wait := .none }).trace ks.1 5 ks.2.lastPc (obj <<< 50 ||| v.toNat % 2 ^ 32)
      else b
    | _ => b) b

/-- R426: fire the notify entries whose wait on this object is satisfied. -/
def Blk.notify (b : Blk) (obj : Nat) : Blk :=
  if (b.syncOwner obj).isNone then b
  else (b.regs.filter (fun kw => decide (Reg.hceNotifyCtl 0 ≤ kw.1 ∧ kw.1 ≤ Reg.hceNotifyCtl 255) &&
      decide ((kw.1 - Reg.hceNotifyCtl 0) % 16 = 0) && bit kw.2 63 && !bit kw.2 62 && decide (bits kw.2 45 32 = obj))).foldl
    (fun b kw =>
      if syncOk (b.syncVal obj) (b.reg (kw.1 + 8)) then
        (b.setReg kw.1 (setBit kw.2 62 true)).msi (bits kw.2 23 19) (bits kw.2 18 16) (bits kw.2 10 0)
      else b) b

/-- R153 to R155: give the counter a new value; waiters and notify entries see it. -/
def Blk.setSync (b : Blk) (obj : Nat) (v : Word) : Blk :=
  ((b.setReg (Reg.coreSyncVal (obj / 8192) (obj % 8192)) v).wakeSync obj).notify obj
def Blk.addSync (b : Blk) (obj : Nat) (v : Word) : Blk := b.setSync obj (b.syncVal obj + v)

/-- R786: a signal that the package gives for a partition; not applied when the object is no longer the partition's. -/
def giveSignal (part obj : Nat) (v : Word) (ctx : Nat := 0) : Act Unit := do
  let b ← get
  if b.syncOwner obj = some part then set (b.addSync obj v)
  else
    countFld (Reg.prtDbrej part) 31 0 1
    post { code := 0x15, sev := 1, part := part, ctx := ctx, d0 := obj, d1 := part, d2 := ctx }

/-- R786: the check of a sync object where it is named. -/
def Blk.ownsSync (b : Blk) (part obj : Nat) : Bool := decide (b.syncOwner obj = some part)

/-! ### Operations under way -/

/-- Register an operation of a slot as under way; its number. -/
def begin' (k : Nat) (ctx : BitVec 16) (kind : OutKind) : Act Nat := do
  let b ← get
  set { b with nextId := b.nextId + 1, outst := b.outst ++ [Outst.mk b.nextId k ctx kind] }
  pure b.nextId

/-- R161: does an operation hold up a fence of this scope? -/
def OutKind.inScope (scope : Nat) : OutKind → Bool
  | .copy host => scope.testBit 5 || (host && scope.testBit 3)
  | .remote => scope.testBit 5 || scope.testBit 4
  | .push => scope.testBit 5 || scope.testBit 0 || scope.testBit 1
  | _ => scope.testBit 5

/-- Is a fence of this scope by this slot satisfied (R161)? -/
def Blk.fenceOk (b : Blk) (k scope : Nat) : Bool := b.outst.all (fun o => decide (o.slot ≠ k) || !o.kind.inScope scope)

/-- Wake the slots whose fence scope is satisfied. -/
def Blk.wakeScopes (b : Blk) : Blk :=
  { b with slots := b.slots.map (fun ks => match ks.2.wait with
    | .scope c => if b.fenceOk ks.1 c then (ks.1, { ks.2 with wait := .none }) else ks
    | _ => ks) }

/-- An operation has completed. -/
def finish (id : Nat) : Act Unit :=
  modify (fun b => ({ b with outst := b.outst.filter (fun o => decide (o.id ≠ id)) }).wakeScopes)

end Sys2Proof.Machine
end

