-- ==== Sys2Proof/Machine/Operands.lean ====
section
/-! DEFINITION. Issuing a Plynax instruction: who may issue, the checks of the instruction word, stream faults, and the
operand forms: scalar registers, virtual addresses, tile registers, masks (03_plynax_programs.md R138 to R144, R163, R171;
05_vector_and_reduction.md R226 to R233; 06_tiles_tiers_placement.md R311). -/
namespace Sys2Proof.Machine

/-- The issuing member: its die, physical and logical core, slot, partition and context. -/
structure Cx where
  key : Nat
  die : Nat
  p : Nat
  log : Nat
  bf : Bool
  part : Nat
  ctx : BitVec 16
  pc : BitVec 32
  w : Word
  layer : BitVec 16
  oper : BitVec 16
deriving DecidableEq, Repr

/-- The slot of a member on the physical core that the sparing map gives it (R3, R38). -/
def Blk.memberKey (b : Blk) (m : Member) : Option Nat := (b.physOf m.die.val m.core.val).map (fun p => slotKey m.die.val p m.bf)

/-- May this slot issue: bound, running, not waiting, its core in service, not moving, and turned to it (R166 to R170, R643)? -/
def Blk.canIssue (b : Blk) (k : Nat) : Bool :=
  let s := b.slot k
  let c := b.core (k / 2)
  s.bound && decide (s.st = .run) && decide (s.wait = .none) && (c.runBf == keyBf k) && !c.fenced && c.moving.isNone && !b.dieOut (keyDie k)

/-- The fetch index of the instruction that a slot issues. -/
def Slot.issuePc (s : Slot) : BitVec 32 := match s.latched with
  | some (pc, _) => pc
  | none => s.fetch

def Blk.cx (b : Blk) (k : Nat) (w : Word) : Cx :=
  let s := b.slot k
  ⟨k, keyDie k, keyPhys k, s.log, keyBf k, s.part.toNat, s.ctx, s.issuePc, w, s.layer, s.oper⟩

/-- What a member that stops no longer waits for: an arrival fence keeps counting in WAITERS until the stream's stop is
recorded (log entry 25). -/
def Wait.stopped : Wait → Wait
  | .fence o v r => .fence o v r
  | _ => .none

/-- R171, R172: an instruction of a slot faults: its member issues nothing further, and the other members of the gang stop at
their next instruction boundary.  Of several faults of a member the one with the lowest fetch index is kept (R174). -/
def Blk.raiseWith (b : Blk) (k : Nat) (f : FaultInfo) : Blk :=
  let s := b.slot k
  let keep := match s.flt with
    | some g => if g.pc ≤ f.pc then g else f
    | none => f
  let b1 := b.setSlot k { s with flt := some keep, st := .stop, wait := .none }
  { b1 with slots := b1.slots.map (fun ks =>
      if ks.2.bound ∧ ks.2.ctx = s.ctx ∧ ks.1 / 40 = k / 40 ∧ ks.2.st = .run then (ks.1, { ks.2 with st := .stop, wait := ks.2.wait.stopped }) else ks) }

/-- The fault of the instruction that a slot is issuing. -/
def Blk.raise (b : Blk) (k cause : Nat) (pc : BitVec 32) (cls op : Nat) : Blk :=
  b.raiseWith k ⟨cause, pc, cls, op, (b.slot k).layer, (b.slot k).oper, b.now⟩

/-- The instruction that a member issued last faults while it waits or completes (R156, R171). -/
def Blk.raiseLast (b : Blk) (k cause : Nat) : Blk :=
  let s := b.slot k
  b.raise k cause s.lastPc (bits s.lastW 63 60) (bits s.lastW 59 54)

/-- The words an instruction has: its first word, EXT and PLEN against what the opcode takes (R139 to R143). -/
def wordOk (w : Word) (ext : Bool) (plen : Nat × Nat) : Bool :=
  (bit w 53 == ext) && decide (plen.1 ≤ bits w 52 48 ∧ bits w 52 48 ≤ plen.2)

/-- Are all bits of `w` outside the given fields [hi, lo] of the 48 operand bits zero (R143)? -/
def rsvdOk (w : Word) (fields : List (Nat × Nat)) : Bool :=
  let m := fields.foldl (fun m f => m ||| ((2 ^ (f.1 - f.2 + 1) - 1) <<< f.2)) 0
  decide (w.toNat % 2 ^ 48 &&& (2 ^ 48 - 1 - m) = 0)

/-- The same over all 64 bits of an extension word. -/
def rsvdExt (x : Word) (fields : List (Nat × Nat)) : Bool :=
  let m := fields.foldl (fun m f => m ||| ((2 ^ (f.1 - f.2 + 1) - 1) <<< f.2)) 0
  decide (x.toNat &&& (2 ^ 64 - 1 - m) = 0)

/-- R745, R756: count and trace the issue of an instruction. -/
def Blk.issued (b : Blk) (c : Cx) : Blk :=
  let b := if b.tagPass c.layer c.oper then b.count (Reg.cntCyc (coreKey c.die c.p) (24 * b2n c.bf + 23)) 63 0 1 else b
  if bit (b.reg Reg.dbgTrcCtrl) (24 + bits c.w 63 60) && decide (bits c.w 63 60 < 8) then b.trace c.key 1 c.pc c.w.toNat else b

/-- Is `w` the first word that the slot has fetched and not yet issued, if it has fetched one? -/
def Slot.holds (s : Slot) (w : Word) : Bool := match s.latched with
  | some (_, w0 :: _) => decide (w = w0)
  | _ => true

/-- The slot that issues `w` for a member as an instruction of class `cls` and opcode `op`: none where the member cannot issue,
the word is of another class or opcode, or the slot has fetched another. -/
def Blk.issuer (b : Blk) (m : Member) (w : Word) (cls op : Nat) : Option Nat :=
  match b.memberKey m with
  | none => none
  | some k =>
    if b.canIssue k && decide (bits w 63 60 = cls) && decide (bits w 59 54 = op) && (b.slot k).holds w then some k else none

/-- The instruction has left its slot, and is counted and traced. -/
def Blk.begun (b : Blk) (k : Nat) (w : Word) : Blk :=
  (b.setSlot k { b.slot k with latched := none, lastPc := (b.slot k).issuePc, lastW := w }).issued (b.cx k w)

/-- What an issued instruction does: a failed encoding check is a stream fault with cause 0x0A (R143), a status that the body ends
with is the cause of one, and "not yet" leaves everything as it was, but for the context fetches it has started (R533). -/
def Blk.run (b : Blk) (k : Nat) (w : Word) (ok : Bool) (body : Cx → Act Unit) : Blk :=
  let c := b.cx k w
  if !ok then (b.begun k w).raise k 0x0A c.pc (bits w 63 60) (bits w 59 54)
  else
    match body c (b.begun k w) with
    | .ok _ t => t
    | .error e t =>
      if e = notYet then { b with xpt := { b.xpt with fetching := t.xpt.fetching } } else t.raise k e c.pc (bits w 63 60) (bits w 59 54)

/-- Issue one Plynax instruction of class `cls` and opcode `op`; without an issuing slot nothing changes. -/
def issue (m : Member) (w : Word) (cls op : Nat) (ok : Bool) (body : Cx → Act Unit) (b : Blk) : Blk :=
  match b.issuer m w cls op with
  | none => b
  | some k => b.run k w ok body

/-! ### Scalar operands -/

/-- R138: s0 reads 0. -/
def Blk.sreg (b : Blk) (k n : Nat) : Word := if n % 32 = 0 then 0 else (b.slot k).s.getD (n % 32) 0
/-- R138: a write of s0 is discarded. -/
def Slot.setS (s : Slot) (n : Nat) (v : Word) : Slot := if n % 32 = 0 then s else { s with s := s.s.setIfInBounds (n % 32) v }
def sreg (c : Cx) (n : Nat) : Act Word := do pure ((← get).sreg c.key n)
def setS (c : Cx) (n : Nat) (v : Word) : Act Unit := modSlot c.key (·.setS n v)

/-- R138: m0 reads all ones. -/
def Slot.mask (s : Slot) (n : Nat) : BitVec 256 := if n % 8 = 0 then -1 else s.m.getD (n % 8) (-1)
def Slot.setM (s : Slot) (n : Nat) (v : BitVec 256) : Slot := if n % 8 = 0 then s else { s with m := s.m.setIfInBounds (n % 8) v }

/-! ### Virtual addresses of a member -/

/-- R163, R276: may a slot reach this offset of a core's local store? -/
def Blk.shareOk (b : Blk) (bf : Bool) (d p off : Nat) : Bool :=
  if bf then b.bfEn d p && decide (0x240000 ≤ off) else !b.bfEn d p || decide (off < 0x240000)

/-- R163 on a resolved address. -/
def Blk.shareAt (b : Blk) (bf : Bool) (a : Nat) (r : Region) : Bool :=
  match r with
  | .store d p => b.shareOk bf d p (a - localBase d p)
  | _ => true

/-- R229: in the slot's share of its core's local store, or in its cluster's store. -/
def Blk.near (b : Blk) (c : Cx) (a : Nat) (r : Region) : Bool :=
  match r with
  | .store d p => decide (d = c.die ∧ p = c.p) && b.shareOk c.bf d p (a - localBase d p)
  | .cluster d q => decide (d = c.die ∧ q = c.p / 4)
  | _ => false

/-- The member's own local store, in its share. -/
def Blk.ownLocal (b : Blk) (c : Cx) (a : Nat) (r : Region) : Bool :=
  match r with
  | .store _ _ => b.near c a r
  | _ => false

/-- R311: where a read of a physical address goes while redirect entries are held. -/
def Slot.redirect (s : Slot) (a : Nat) : Nat :=
  match s.redirects.find? (fun r => decide (r.fast ≤ a ∧ a < r.fast + r.frames * 8192)) with
  | some r => r.slow + (a - r.fast)
  | none => a

/-- A read address of a member: translated, redirected, checked (R48, R163, R311). -/
def rdAddr (c : Cx) (va : Nat) : Act (Nat × Region) := do
  let pa ← translate c.part va .rd
  let b ← get
  let (a, r) ← engineAddr ⟨some c.die⟩ ((b.slot c.key).redirect pa)
  need (b.shareAt c.bf a r) 0x02
  pure (a, r)

/-- A write address of a member: translated, not redirected, not pinned, in its share; a write to the DDR5 tier waits while
HOLD is set (R48, R163, R311, R407, R450). -/
def wrAddr (c : Cx) (va : Nat) (n : Nat := 8192) : Act (Nat × Region) := do
  let pa ← translate c.part va .wr
  let b ← get
  need ((b.slot c.key).redirect pa = pa) 0x02
  let (a, r) ← engineAddr ⟨some c.die⟩ pa
  need (b.shareAt c.bf a r && !b.pinned a n) 0x02
  if r = .ddr && b.hold then throw notYet
  pure (a, r)

/-- Read bytes at a member's virtual address. -/
def rdBytes (c : Cx) (va n : Nat) (where' : Blk → Nat → Region → Bool := fun _ _ _ => true) : Act (List Byte) :=
  (piecesOf va n).foldlM (fun acc p => do
    let (a, r) ← rdAddr c p.1
    need (where' (← get) a r) 0x02
    let (bs, st) ← readLinesAt a p.2 r
    need (st = 0) st
    pure (acc ++ bs)) []

/-- Check a range of addresses for writing. -/
def wrCheck (c : Cx) (va n : Nat) (where' : Blk → Nat → Region → Bool := fun _ _ _ => true) : Act Unit :=
  (piecesOf va n).forM (fun p => do
    let (a, r) ← wrAddr c p.1 p.2
    need (where' (← get) a r) 0x02)

/-- Write bytes at a member's virtual address. -/
def wrBytes (c : Cx) (va : Nat) (bs : List Byte) : Act Unit := do
  let _ ← (piecesOf va bs.length).foldlM (fun rest p => do
    let (a, r) ← wrAddr c p.1 p.2
    writeLinesAt a r (rest.take p.2)
    if r = .ddr then modify (·.devTouch c.die a p.2)
    pure (rest.drop p.2)) bs

/-- Read a frame of a member: its contents and read status. -/
def rdFrame' (c : Cx) (va : Nat) (where' : Blk → Nat → Region → Bool := fun _ _ _ => true) : Act (Frame × Nat) := do
  need (va % 8192 = 0) 0x0A
  let (a, r) ← rdAddr c va
  need (where' (← get) a r) 0x02
  readFrameAt a r

/-- Read a frame of a member, ending with 0x05 or 0x06 when it is bad. -/
def rdFrame (c : Cx) (va : Nat) (where' : Blk → Nat → Region → Bool := fun _ _ _ => true) : Act Frame := do
  let (f, st) ← rdFrame' c va where'
  need (st = 0) st
  pure f

/-- Write a whole frame of a member. -/
def wrFrame (c : Cx) (va : Nat) (f : Frame) : Act Unit := do
  let (a, r) ← wrAddr c va
  writeFrameAt a r f

/-- R287: the header of a whole-frame write by a member. -/
def Cx.header (c : Cx) (f : Fmt) (sat : Bool) (empty : Word) (poison : Bool := false) (stamp : Nat := 0) : Header :=
  { fmt := BitVec.ofNat 4 f.code, klog2 := BitVec.ofNat 4 f.klog2, part := BitVec.ofNat 10 c.part, sat := sat, poison := poison,
    empty := empty, stamp := BitVec.ofNat 32 stamp, layer := c.layer, oper := c.oper }

/-- R191, R231, R288: does a frame's header name the format? -/
def headerIs (h : Header) (f : Fmt) : Bool := decide (h.fmt.toNat = f.code ∧ h.klog2.toNat = f.klog2)

/-- FP32 values of a vector of `n` entries. -/
def f32s (bs : List Byte) (n : Nat) : List Val := (chunk 4 n bs).map (fun c => ofF32 (leNat c))
/-- The bytes of FP32 codes. -/
def f32Bytes (cs : List Nat) : List Byte := cs.flatMap (fun x => natLe 4 x)

/-! ### Tile operands (R227 to R231) -/

/-- An operand specifier (R227). -/
inductive Spec where
  | reg (n : Nat)
  | immLo
  | immHi
  | mem (n : Nat)
  | bad
deriving DecidableEq, Repr

def Spec.of (x : Nat) : Spec :=
  if x < 8 then .reg x else if x = 8 then .immLo else if x = 9 then .immHi else if 0x20 ≤ x ∧ x < 0x40 then .mem (x - 0x20) else .bad

/-- A tile as an engine sees it: values or codes come from data and sideband. -/
structure Tile where
  data : List Byte
  side : List Byte
  sat : Bool
  empty : Word
deriving DecidableEq, Repr

/-- Read tile `i` of a run that starts at a specifier, as format `f`; memory operands must satisfy `where'` (R229 to
R231).  A register without a format reads as zeros (R226). -/
def rdTile (c : Cx) (sp : Nat) (i : Nat) (f : Fmt) (where' : Blk → Nat → Region → Bool) : Act Tile := do
  match Spec.of sp with
  | .reg n =>
    need (n + i < 8) 0x0A
    let t := (((← get).slot c.key).t.toList[n + i]?).getD {}
    match t.fmt with
    | none => pure ⟨[], [], false, 0⟩
    | some g =>
      need (g = f) 0x0A
      pure ⟨t.data, [], t.sat, t.empty⟩
  | .mem n =>
    let va := (← sreg c n).toNat + i * 8192
    let fr ← rdFrame c va where'
    need (headerIs fr.hdr f) 0x0A
    pure ⟨fr.data, fr.side, fr.hdr.sat, fr.hdr.empty⟩
  | _ => throw 0x0A

/-- Check that tile `i` of a destination run can be written (R229, R230). -/
def wrTileCheck (c : Cx) (sp i : Nat) (where' : Blk → Nat → Region → Bool) : Act Unit := do
  match Spec.of sp with
  | .reg n => need (n + i < 8) 0x0A
  | .mem n =>
    let va := (← sreg c n).toNat + i * 8192
    need (va % 8192 = 0) 0x0A
    let (a, r) ← wrAddr c va
    need (where' (← get) a r) 0x02
  | _ => throw 0x0A

/-- Write tile `i` of a destination run (R237). -/
def wrTile (c : Cx) (sp i : Nat) (f : Fmt) (t : Tile) : Act Unit := do
  match Spec.of sp with
  | .reg n => modSlot c.key (fun s => { s with t := s.t.setIfInBounds (n + i) ⟨some f, t.sat, t.empty, t.data⟩ })
  | .mem n => wrFrame c ((← sreg c n).toNat + i * 8192) ⟨c.header f t.sat t.empty, t.side, t.data⟩
  | _ => throw 0x0A

/-- R790: the tile index of tile `i` of a destination: from its address, or the given fallback for a tile register. -/
def tileIndex (c : Cx) (sp i : Nat) (fallback : Nat) : Act Nat := do
  match Spec.of sp with
  | .mem n => pure ((((← sreg c n).toNat + i * 8192) % 2 ^ 42) / 128)
  | _ => pure fallback

/-- R222: the lane of element `e` of a tile of `n` elements, and its position in the lane's sequence. -/
def laneOf (n e : Nat) : Nat × Nat := let g := n / 2048; ((e / g) % 256, (e / (256 * g)) * g + e % g)

/-- The draws of the vector engine for every element of an output tile (R100 to R102, R222). -/
def vecDraws (seed : Word) (tile n : Nat) : List Nat :=
  (List.range n).map (fun e => let l := laneOf n e; srDraw seed tile l.1 l.2)

/-- R232: is element `e` (of `n`, `k` a row) selected by the mask? -/
def selected (m : BitVec 256) (mrow : Bool) (n k e : Nat) : Bool :=
  if mrow then m.getLsbD (e / k) else m.getLsbD (laneOf n e).1

/-- R747: is a conversion to a format of a slot with these tags counted? -/
def Blk.censusOn (b : Blk) (layer oper : BitVec 16) (dst : Fmt) : Bool :=
  let w := b.reg Reg.cntCtrl
  bit w 61 && (bit w 60 || decide (bits w 59 56 = dst.code)) && b.tagPass layer oper

/-- R116, R117, R747: count the categories met by a conversion unit: 0 load path, 1 varnish stage, 2 vector engine. -/
def census (c : Cx) (unit : Nat) (dst : Fmt) (cats : List Nat) : Act Unit :=
  modify (fun b =>
    if b.censusOn c.layer c.oper dst then
      (List.zipWith (fun i n => (i, n)) (List.range 16) (tally cats)).foldl (fun b x =>
        if x.2 = 0 then b else b.count (Reg.cntCen (coreKey c.die c.p) (48 * b2n c.bf + 16 * unit + x.1)) 63 0 x.2) b
    else b)

/-- The member begins to wait. -/
def setWait (c : Cx) (v : Wait) : Act Unit := do
  let t := (← get).aon.elapsed
  modSlot c.key (fun s => { s with wait := v, waitFrom := t })

/-- R332, R333, R563: a queued command completes with a status, having moved so many frames or bytes. -/
def completeCmd (c : Comp) (die st moved : Nat) : Act Unit := do
  if st = 0 || c.nofault then
    match c.crec with
    | some a =>
      let t := (← get).now
      quietly (vwrite ⟨some die⟩ c.part a (wordsBytes [word (st <<< 56 ||| moved % 2 ^ 32), word t]))
    | none => pure ()
    if st = 0 then
      match c.flag with
      | some (a, v) => quietly (vwrite ⟨some die⟩ c.part a (natLe 8 v.toNat))
      | none => pure ()
    match c.sig with
    | some o => giveSignal c.part o 1 c.ctx.toNat
    | none => pure ()
  finish c.id
  if st ≠ 0 && !c.nofault then
    modify (fun b =>
      if (b.slot c.slot).bound && decide ((b.slot c.slot).ctx = c.ctx) then
        b.raiseWith c.slot ⟨st, c.pc, bits c.word 63 60, bits c.word 59 54, c.layer, c.oper, b.now⟩
      else b)

/-- A command that the stream's stop flushes completes with 0x01 and faults nothing (R130, R173). -/
def Comp.flushed (c : Comp) : Comp := if c.nofault then c else { c with nofault := true, flag := none, sig := none, crec := none }

end Sys2Proof.Machine
end

