-- ==== Sys2Proof/Machine/Samples.lean ====
section
/-! DEFINITION. Sample and trace records in the partitions' rings (17_counters_traces_hangs.md R748 to R754). -/
namespace Sys2Proof.Machine

/-- The physical address of the view-table entry of a partition (R748). -/
def Blk.viewEntry (b : Blk) (p : Nat) : Nat := b.fld Reg.cntViewBase 47 16 * 65536 + 64 * p

/-- R749, R751: write one record to a partition's sample or trace ring.  The record is a function of the records dropped
since the last one.  A ring whose log2 lies outside its range takes no record (log entry 19). -/
def ringWrite (p : Nat) (trace : Bool) (rec' : Nat → List Byte) : Act Unit := do
  let b ← get
  if bit (b.reg Reg.cntViewBase) 0 then
    let e := b.viewEntry p
    let w0 ← readWord e
    let w ← readWord (e + (if trace then 16 else 8))
    let lg := bits w 3 0
    let lg := if trace then bits w 4 0 else lg
    if bit w0 (if trace then 62 else 63) && (if trace then decide (8 ≤ lg ∧ lg ≤ 20) else decide (6 ≤ lg ∧ lg ≤ 15)) then
      let base := bits w 41 6 * 64
      let slots := 2 ^ lg
      let size := if trace then 32 else 128
      let key := 2 * p + b2n trace
      let st ← Act.status (do
        let c ← vread ⟨none⟩ p base 16
        let prod := leNat (c.take 4)
        let cons := leNat ((c.drop 8).take 4)
        let b ← get
        if (prod + 2 ^ 32 - cons) % 2 ^ 32 = slots then
          set { b with dbg := { b.dbg with drops := sset 0 b.dbg.drops key (sget 0 b.dbg.drops key + 1) } }
        else
          vwrite ⟨none⟩ p (base + 64 + size * (prod % slots)) (rec' (sget 0 b.dbg.drops key))
          let prod' := (prod + 1) % 2 ^ 32
          vwrite ⟨none⟩ p base (natLe 8 prod')
          modify (fun b => { b with dbg := { b.dbg with drops := sset 0 b.dbg.drops key 0 } })
          if prod' % (slots / 4) = 0 then giveSignal p (if trace then bits w0 13 0 else bits w0 45 32) 1)
      if st ≠ 0 then
        tableWrite 6 e (setBits (setBit w0 61 true) 63 62 0) p

/-- R750: a record of a partition, and of partition 0 where it takes every record. -/
def recordOut (p : Nat) (trace : Bool) (rec' : Nat → List Byte) : Act Unit := do
  quietly (ringWrite p trace rec')
  let b ← get
  if p ≠ 0 && bit (b.reg Reg.dbgTrcCtrl) 62 then quietly (ringWrite 0 trace rec')

/-- The cumulative counts of a slot: 24 cycle counts, then 48 census counts (R745, R747). -/
def Blk.cycCounts (b : Blk) (k : Nat) : List Nat := (List.range 24).map (fun i => (b.reg (Reg.cntCyc (k / 2) (24 * (k % 2) + i))).toNat)
def Blk.cenCounts (b : Blk) (k : Nat) : List Nat := (List.range 48).map (fun i => (b.reg (Reg.cntCen (k / 2) (48 * (k % 2) + i))).toNat)

/-- A 32-bit delta that stops at its maximum (R752). -/
def delta32 (new old : Nat) : Nat := min (new - old) (2 ^ 32 - 1)

/-- The header and counts of a sample record (R753's table). -/
def sampleBytes (b : Blk) (k kind unit : Nat) (final : Bool) (s : SampleSt) (counts : List Nat) (drops : Nat) : List Byte :=
  let sl := b.slot k
  let w := b.reg Reg.cntCtrl
  let w1 := recWord1 kind (b.fld Reg.aonTimeCtrl 63 63) (keyDie k) sl.log (k % 2) sl.part.toNat sl.ctx.toNat
    ||| b2n final <<< 54 ||| b2n s.mixed <<< 53 ||| unit <<< 18 ||| (if bit w 60 then 15 else bits w 59 56) <<< 14
  padTo 128 (wordsBytes [word b.now, word w1,
    word (sl.layer.toNat <<< 48 ||| sl.oper.toNat <<< 32 ||| drops % 2 ^ 32), word (b.now - s.time)]
    ++ counts.flatMap (natLe 4))

/-- R752: write the records of one bound slot, while samples are enabled. -/
def sampleSlot (k : Nat) (final : Bool) : Act Unit := do
  let b ← get
  if bit (b.reg Reg.cntCtrl) 63 && (b.slot k).bound then
    let s := sget {} b.dbg.sampled k
    let p := (b.slot k).part.toNat
    let cyc := b.cycCounts k
    let cen := b.cenCounts k
    let dc := List.zipWith delta32 cyc (s.cyc ++ List.replicate 24 0)
    recordOut p false (fun n => sampleBytes b k 1 0 final s dc n)
    if bit (b.reg Reg.cntCtrl) 61 then
      let dn := chunk 16 3 (List.zipWith delta32 cen (s.cen ++ List.replicate 48 0))
      (List.zipWith (fun u d => (u, d)) (List.range 3) dn).forM (fun ud =>
        if ud.2.any (fun x => decide (x ≠ 0)) then recordOut p false (fun n => sampleBytes b k 2 ud.1 final s ud.2 n)
        else pure ())
    modify (fun b => { b with dbg := { b.dbg with sampled := sset {} b.dbg.sampled k ⟨cyc, cen, b.now, false⟩ } })

/-- A change of a slot's tags (R149, R752): a record of the interval that ends, or a mixed interval. -/
def tagChange (k : Nat) (layer oper : BitVec 16) : Act Unit := do
  let b ← get
  if layer ≠ (b.slot k).layer ∨ oper ≠ (b.slot k).oper then
    if bit (b.reg Reg.cntCtrl) 62 then sampleSlot k false
    else
      let m := sset {} b.dbg.sampled k { sget {} b.dbg.sampled k with mixed := true }
      modify (fun b => { b with dbg := { b.dbg with sampled := m } })
  modSlot k (fun s => { s with layer := layer, oper := oper })

end Sys2Proof.Machine
end

