-- ==== Sys2Proof/Config.lean ====
section
/-! DEFINITION. What the spec leaves open: every constant here is opaque, so nothing can be proved about its value.
Each one is named in the assumption log. -/
namespace Sys2Proof

/-- R239 leaves open which of the two adjacent FP32 values EXP delivers: `true` takes the one of larger magnitude
(log entry 10). -/
opaque Config.expAway : BitVec 32 → Bool
/-- As `expAway`, for LOG (R239, log entry 10). -/
opaque Config.logAway : BitVec 32 → Bool
/-- As `expAway`, for TANH (R239, log entry 10). -/
opaque Config.tanhAway : BitVec 32 → Bool

/-- SHA-512, an external standard that the spec names and does not define (R629, R635; log entry 11). -/
opaque Config.sha512 : List Byte → BitVec 512
/-- Ed25519 verification (RFC 8032): key, message, signature (R629, R637; log entry 11). -/
opaque Config.ed25519Verify : List Byte → List Byte → List Byte → Bool
/-- An Ed25519 signature of a message by the key derived from a private seed (R636; log entry 11). -/
opaque Config.ed25519Sign : BitVec 256 → List Byte → List Byte
/-- HKDF-SHA-512 of a secret and an input (R633; log entry 11). -/
opaque Config.hkdf : BitVec 256 → BitVec 512 → BitVec 256
/-- Does a certificate chain verify and end at the root key with this digest (R623; log entry 11)? -/
opaque Config.chainVerify : List (List Byte) → BitVec 512 → Bool
/-- The certificates of R634 in the order of its list; the alias certificate carries measurement 1 (log entry 11). -/
opaque Config.cert : Nat → List Byte → List Byte
/-- What the fuses hold and the spec gives no value of: the digest of each key slot (R630) and the unique device secret
(R633); log entry 12. -/
opaque Config.keySlot : Nat → BitVec 512
opaque Config.deviceSecret : BitVec 256
/-- The boot ROM's version, which measurement 0 is extended with (R635; log entry 12). -/
opaque Config.romVersion : List Byte

/-- The free value of SEC_STATUS.NONCE, "random at each start" (13_partitions_and_trust.md, SEC_STATUS; log entry 12). -/
opaque Config.nonce : Nat → BitVec 32
/-- A free choice among equals: which of the lanes that hold the fewest queued bytes a packet takes (R537), which
engine of those with the fewest bytes AUTO picks (R327); log entry 13. -/
opaque Config.tie : Nat → Nat
/-- A free 64-bit value for a result that the spec does not state (log entry 14). -/
opaque Config.freeWord : Nat → BitVec 64
/-- Which packed layout UPD.SNAP reads its group in: the spec gives SNAP no program slot and no other field that says (R382,
R400; log entry 43); `true` is PACK4. -/
opaque Config.snapPack4 : Nat → Bool
/-- The PCIe port that an address of the PCIe window leads to, which the host's operating system decides when it numbers the
buses (R438; log entry 46). -/
opaque Config.pciePort : Nat → Nat
/-- The Cragil opcode of stage-queue frames and credits, which R523 does not give (log entry 26). -/
opaque Config.stageOp : BitVec 8
/-- A reading of a platform sensor or effecter that the spec does not enumerate (R622; log entry 14). -/
opaque Config.sensor : Nat → Nat → Nat

end Sys2Proof
end

