-- ==== Sys2Proof/Machine/Trans.lean ====
section
/-! DEFINITION. Reciprocals, exponentials, logarithms and hyperbolic tangents, and the row statistics built on them
(05_vector_and_reduction.md R238 to R240, 02_numbers.md R111, R113).  The FP32 value below the exact result in magnitude is
computed; which of the two adjacent values is delivered is the free choice of R239 (log entry 10). -/
namespace Sys2Proof.Machine

/-- Σ num^(2i+1) / ((2i+1) den^(2i+1)) in units of 2^−p, for `n` terms: the series of atanh(num/den). -/
def atanhGo (den2 num2 : Nat) : Nat → Nat → Nat → Nat → Nat
  | 0, _, _, acc => acc
  | n + 1, i, t, acc => atanhGo den2 num2 n (i + 1) (t * num2 / den2) (acc + t / (2 * i + 1))

/-- ln 2 in units of 2^−p. -/
def ln2Fix (p : Nat) : Nat := 2 * atanhGo 9 1 (p / 3 + 4) 0 ((1 <<< p) / 3) 0

/-- Σ r^n / n! in units of 2^−p. -/
def expGo (p r : Nat) : Nat → Nat → Nat → Nat → Nat
  | 0, _, _, acc => acc
  | f + 1, n, t, acc => expGo p r f (n + 1) (((t * r) >>> p) / n) (acc + t)

/-- e^x for x = ± m × 2^e with |x| < 2^10: a magnitude and its exponent, both to `p` fractional bits. -/
def expFix (p : Nat) (neg : Bool) (m : Nat) (e : Int) : Nat × Int :=
  let x : Int := signedAt neg (scaleDown m e (-(p : Int))) 0 0
  let l : Int := ln2Fix p
  let k := Int.fdiv x l
  let r := (x - k * l).toNat
  (expGo p r (p / 3 + 8) 1 (1 <<< p) 0, k - p)

/-- The FP32 result of a function whose exact value is not representable: the magnitude (mag, e) rounded down, or the next
value of larger magnitude when `away`; with the categories of R116. -/
def adjacent (neg : Bool) (mag : Nat) (e : Int) (away : Bool) : Nat × Nat :=
  let k := max (ilog mag e - 23) f32.kmin
  let n := scaleDown mag e k
  let n' := if away then n + 1 else n
  let code := if n' = 0 then 0 else ((k - f32.kmin).toNat <<< 23) + n'
  if f32.maxCode < code then (0x7F800000 + f32.signBit neg, catMask true true false false true false)
  else (code + f32.signBit neg, catMask true away (decide (n' = 0)) (decide (0 < code ∧ code < 2 ^ 23)) false false)

/-- R239, R240: EXP to FP32. -/
def fnExp (v : Val) : Nat × Nat :=
  match v with
  | .nan => (0x7FC00000, 1 + 256)
  | .inf s => (if s then 0 else 0x7F800000, 1)
  | .fin s m e =>
    if m = 0 then (0x3F800000, 1)
    else if !magLt m e 128 0 then
      if s then adjacent false 1 (-200) (Config.expAway (BitVec.ofNat 32 (toF32 v)))
      else (0x7F800000, catMask true true false false true false)
    else
      let (t, k) := expFix 256 s m e
      adjacent false t k (Config.expAway (BitVec.ofNat 32 (toF32 v)))

/-- R239, R240: LOG to FP32. -/
def fnLog (v : Val) : Nat × Nat :=
  match v with
  | .nan => (0x7FC00000, 1 + 256)
  | .inf s => if s then (0x7FC00000, 1 + 128) else (0x7F800000, 1)
  | .fin s m e =>
    if m = 0 then (0xFF800000, 1)
    else if s then (0x7FC00000, 1 + 128)
    else
      let p : Nat := 256
      let f := scaleDown m (-(Nat.log2 m : Int)) (-(p : Int))
      let z := ((f - (1 <<< p)) <<< p) / (f + (1 <<< p))
      let lf := 2 * atanhGo (1 <<< (2 * p)) (z * z) 90 0 z 0
      let r : Int := ilog m e * (ln2Fix p : Int) + lf
      if r = 0 then (0, 1)
      else adjacent (decide (r < 0)) r.natAbs (-(p : Int)) (Config.logAway (BitVec.ofNat 32 (toF32 v)))

/-- R239, R240: TANH to FP32. -/
def fnTanh (v : Val) : Nat × Nat :=
  match v with
  | .nan => (0x7FC00000, 1 + 256)
  | .inf s => (0x3F800000 + f32.signBit s, 1)
  | .fin s m e =>
    if m = 0 then (f32.signBit s, 1)
    else
      let (m', e') := if magLt m e 64 0 then (m, e) else (64, 0)
      let p : Nat := 640
      let (t, k) := expFix p false m' (e' + 1)
      let u := scaleDown t k (-(p : Int))
      let one := 1 <<< p
      adjacent s (((u - one) <<< p) / (u + one)) (-(p : Int)) (Config.tanhAway (BitVec.ofNat 32 (toF32 v)))

/-- R238, R240: 1/x as an exact value with sticky: RCP rounds it once. -/
def fnRcp (v : Val) : Val × Bool :=
  match v with
  | .nan => (.nan, false)
  | .inf s => (.fin s 0 0, false)
  | .fin s m e =>
    if m = 0 then (.inf s, false)
    else let (q, k, st) := quot 1 0 m e; (.fin s q k, st)

/-- R238, R240: 1/√x as an exact value with sticky. -/
def fnRsq (v : Val) : Val × Bool :=
  match v with
  | .nan => (.nan, false)
  | .inf s => (if s then .nan else .fin false 0 0, false)
  | .fin s m e =>
    if m = 0 then (.inf s, false)
    else if s then (.nan, false)
    else
      let t0 := 200 + Nat.log2 m
      let t : Nat := if (-e - (t0 : Int)) % 2 = 0 then t0 else t0 + 1
      let n := (1 <<< t) / m
      let r := isqrt n
      (.fin false r ((-e - t) / 2), decide (r * r ≠ n) || decide ((1 <<< t) % m ≠ 0))

/-- FP32 arithmetic with RNE on values, delivering a value. -/
def rne32 (v : Val) : Val := ofF32 (toF32 v)

/-- Order of two values that are not NaN, with −0 below +0 (R235). -/
def Val.lt (x y : Val) : Bool := decide (x.cmp y < 0) || (x.isZero && y.isZero && x.isNeg && !y.isNeg)

/-- The larger of two values; NaN if either is (R235, R113). -/
def vmax (x y : Val) : Val := if x.isNan || y.isNan then .nan else if x.lt y then y else x
/-- The smaller of two values; NaN if either is. -/
def vmin (x y : Val) : Val := if x.isNan || y.isNan then .nan else if y.lt x then y else x

/-- R111: the statistics (m, s) of a row whose masked positions have been removed, as FP32 values. -/
def rowStats (l : List Val) : Val × Val :=
  let ninf := (l.filter (fun v => decide (v = .inf false))).length
  if l.any Val.isNan then (.nan, .nan)
  else if 0 < ninf then (.inf false, rne32 (.ofInt ninf))
  else if l.all (fun v => decide (v = .inf true)) then (.inf true, .zero)
  else
    let m := l.foldl vmax (.inf true)
    (m, rne32 (l.foldl (fun a v => a.add (ofF32 (fnExp (rne32 (v.add m.neg))).1)) .zero))

/-- R113: combine the statistics of two parts of a row. -/
def combineStats (a b : Val × Val) : Val × Val :=
  if a.1.isNan || b.1.isNan then (.nan, .nan)
  else if a.1 = .inf false ∨ b.1 = .inf false then
    (.inf false, rne32 ((if a.1 = .inf false then a.2 else .zero).add (if b.1 = .inf false then b.2 else .zero)))
  else if a.1 = .inf true then b
  else if b.1 = .inf true then a
  else
    let m := vmax a.1 b.1
    let e (x : Val) := ofF32 (fnExp (rne32 (x.add m.neg))).1
    (m, rne32 ((rne32 (a.2.mul (e a.1))).add (rne32 (b.2.mul (e b.1)))))

end Sys2Proof.Machine
end

