-- ==== Sys2Proof/Machine/Stats.lean ====
section
/-! DEFINITION. Sums, means and variances of rows in FP32, shared by the varnish stage and the reduction unit
(04_arrays_and_accumulators.md R212, R213; 05_vector_and_reduction.md R261, R263). -/
namespace Sys2Proof.Machine

/-- The exact sum of values; +0 for none (R261). -/
def exactSum : List Val → Val
  | [] => .zero
  | x :: r => r.foldl Val.add x

/-- The exact sum of exact squares. -/
def exactSq (l : List Val) : Val := exactSum (l.map (fun x => x.mul x))

/-- FP32 addition and multiplication with RNE. -/
def fadd (a b : Val) : Val := rne32 (a.add b)
def fmul (a b : Val) : Val := rne32 (a.mul b)

/-- FP32 division with RNE (IEEE 754-2019). -/
def fdiv (a b : Val) : Val :=
  match a, b with
  | .nan, _ => .nan
  | _, .nan => .nan
  | .inf _, .inf _ => .nan
  | .inf s, .fin t _ _ => .inf (s != t)
  | .fin s _ _, .inf t => .fin (s != t) 0 0
  | .fin s m e, .fin t n f =>
    if n = 0 then (if m = 0 then .nan else .inf (s != t))
    else if m = 0 then .fin (s != t) 0 0
    else
      let (q, k, st) := quot m e n f
      ofF32 (toF32 (.fin (s != t) q k) st)

/-- (n, μ, M2) of R213 and R261. -/
structure MeanVar where
  n : Val
  mu : Val
  m2 : Val
deriving DecidableEq, Repr

def meanVar (l : List Val) : MeanVar :=
  if l.isEmpty then ⟨.zero, .zero, .zero⟩
  else
    let mu := fdiv (exactSum l) (.ofInt l.length)
    ⟨.ofInt l.length, mu, rne32 (exactSum (l.map (fun x => let d := x.add mu.neg; d.mul d)))⟩

/-- R213: combine the stored values with the tile's own. -/
def MeanVar.combine (st t : MeanVar) : MeanVar :=
  if t.n.isZero then st
  else if st.n.isZero then t
  else
    let nn := fadd st.n t.n
    let d := fadd t.mu st.mu.neg
    ⟨nn, fadd st.mu (fmul d (fdiv t.n nn)), fadd (fadd st.m2 t.m2) (fmul (fmul d d) (fdiv (fmul st.n t.n) nn))⟩

/-- FP32 codes of values. -/
def f32Codes (l : List Val) : List Nat := l.map (fun v => toF32 v)

end Sys2Proof.Machine
end

