-- ==== Sys2Proof/Machine/Vec.lean ====
section
/-! DEFINITION. The VEC class (05_vector_and_reduction.md R222 to R257). -/
namespace Sys2Proof.Machine

/-- The common operand fields of R254, with the extension word. -/
structure VecF where
  fmt : Fmt
  cv : Conv
  mkf : Nat
  mrow : Bool
  mz : Bool
  d : Nat
  a : Nat
  b : Nat
  c : Nat
  ext : Option Word

def vecFields (w x : Word) : Option VecF := do
  let f ← Fmt.ofCode (bits w 47 44)
  let rm ← RM.ofCode (bits w 43 41)
  some ⟨f, ⟨rm, bit w 40, .floor⟩, bits w 39 37, bit w 36, bit w 35, bits w 34 29, bits w 28 23, bits w 22 17, bits w 16 11,
    if bit w 53 then some x else none⟩

/-- Is a specifier one of memory? -/
def Spec.isMem : Spec → Bool
  | .mem _ => true
  | _ => false

/-- R228: the element code that an immediate of format `f` holds. -/
def immCode (f : Fmt) (h : Nat) : Option Nat :=
  match f with
  | .fp32 => some h
  | .int32 => some h
  | .bf16 => if h < 2 ^ 16 then some h else none
  | .fp16 => if h < 2 ^ 16 then some h else none
  | .e4m3 => if h < 2 ^ 8 then some h else none
  | .e5m2 => if h < 2 ^ 8 then some h else none
  | _ => none

/-- R225: formats that a tile register or an immediate can hold. -/
def Fmt.inReg (f : Fmt) : Bool := !f.isMx && !f.isInt4

/-- Source tile `i` of a run (R227 to R231). -/
def vecSrc (c : Cx) (ext : Option Word) (sp i : Nat) (f : Fmt) : Act Tile := do
  match Spec.of sp, ext with
  | .immLo, some x =>
    match immCode f (bits x 31 0) with
    | some v => pure ⟨f.pack (List.replicate (64 * f.k) v), [], false, 0⟩
    | none => throw 0x0A
  | .immHi, some x =>
    match immCode f (bits x 63 32) with
    | some v => pure ⟨f.pack (List.replicate (64 * f.k) v), [], false, 0⟩
    | none => throw 0x0A
  | .mem _, _ => rdTile c sp i f (fun b => b.near c)
  | .reg _, _ =>
    need f.inReg 0x0A
    rdTile c sp i f (fun b => b.near c)
  | _, _ => throw 0x0A

/-- Check a destination run of `n` tiles of a format (R225, R229, R230). -/
def vecDstCheck (c : Cx) (sp n : Nat) (f : Fmt) : Act Unit :=
  (List.range n).forM (fun i => do
    need (f.inReg || (Spec.of sp).isMem) 0x0A
    wrTileCheck c sp i (fun b => b.near c))

/-- The bytes that a destination tile holds before the instruction. -/
def prevData (c : Cx) (sp i : Nat) : Act (List Byte) := do
  match Spec.of sp with
  | .reg n => pure (((((← get).slot c.key).t.toList[n + i]?).getD {}).data)
  | .mem n =>
    let (a, _) ← wrAddr c (((← sreg c n).toNat + i * 8192) % 2 ^ 64)
    pure (memRead (← get).mem.cells a 8192)
  | _ => pure []

/-- Write a destination tile of which some elements keep their previous value: a memory frame keeps its sideband, its poison
mark and what storage did to it (R233, R370). -/
def wrPart (c : Cx) (sp i : Nat) (f : Fmt) (t : Tile) : Act Unit := do
  match Spec.of sp with
  | .mem n =>
    let (a, _) ← wrAddr c (((← sreg c n).toNat + i * 8192) % 2 ^ 64)
    modify (fun b =>
      let m := b.fmeta (a / 8192)
      (b.putBytes a (padTo 8192 t.data)).setFmeta (a / 8192) { m with hdr := c.header f t.sat t.empty m.hdr.poison })
  | _ => wrTile c sp i f t

/-- R790: the tile index of a destination tile, from its address or from the first memory source; `off` is the byte offset
of the first element read of that source. -/
def vecTile (c : Cx) (v : VecF) (i off : Nat) : Act Nat := do
  match Spec.of v.d with
  | .mem _ => tileIndex c v.d i 0
  | .reg n =>
    match [v.a, v.b, v.c].find? (fun sp => (Spec.of sp).isMem) with
    | some sp => pure ((((← sreg c (sp - 0x20)).toNat + off) % 2 ^ 42) / 128)
    | none => pure (2 ^ 35 + n + i)
  | _ => pure 0

/-- R232, R233: lay the results of the selected elements over what the others keep. -/
def mergeCodes (m : BitVec 256) (mrow mz : Bool) (k : Nat) (new old : List Nat) : List Nat :=
  if m = -1 then new
  else List.zipWith (fun e p => if selected m mrow (64 * k) k e then p.1 else if mz then 0 else p.2) (List.range (64 * k))
    (List.zip new (old ++ List.replicate (64 * k) 0))

/-- Does the mask leave an element out? -/
def maskedOff (m : BitVec 256) (mrow : Bool) (k : Nat) : Bool :=
  decide (m ≠ -1) && (List.range (64 * k)).any (fun e => !selected m mrow (64 * k) k e)

/-- The categories of the selected elements. -/
def keepCats (m : BitVec 256) (mrow : Bool) (k : Nat) (cats : List Nat) : List Nat :=
  if m = -1 then cats
  else ((List.zip (List.range (64 * k)) cats).filter (fun p => selected m mrow (64 * k) k p.1)).map (·.2)

/-- Deliver one destination tile of a format that is neither MX nor INT4: codes and categories of every element.  Answers
the categories of the selected elements. -/
def deliver (c : Cx) (v : VecF) (i : Nat) (es : List (Nat × Nat)) (sat : Bool) (empty : Word) (intSat : Bool) : Act (List Nat) := do
  let k := v.fmt.k
  let m := ((← get).slot c.key).mask v.mkf
  let part := maskedOff m v.mrow k && !v.mz
  let old ← if part then prevData c v.d i else pure []
  let cats := keepCats m v.mrow k (es.map (·.2))
  let codes := mergeCodes m v.mrow v.mz k (es.map (·.1)) (if part then v.fmt.codes old else [])
  let t : Tile := ⟨v.fmt.pack codes, [], sat || (intSat && cats.any (fun x => x.testBit 6)), empty⟩
  if part then wrPart c v.d i v.fmt t else wrTile c v.d i v.fmt t
  pure cats

/-- The formats an opcode accepts (R255). -/
def vecFp : List Fmt := [.fp32, .bf16, .fp16]
def vecAdd4 : List Fmt := [.fp32, .int32, .bf16, .fp16]
def vecMin6 : List Fmt := [.fp32, .int32, .bf16, .fp16, .e4m3, .e5m2]

/-- One element-wise instruction over the given sources: `fn` delivers an element's code and categories from the source values
and the lane's draw. -/
def vecMap (w x : Word) (fmts : List Fmt) (nsrc : Nat) (fn : Fmt → Conv → List Val → Nat → Nat × Nat) (c : Cx) : Act Unit := do
  match vecFields w x with
  | none => throw 0x0A
  | some v =>
    need (fmts.contains v.fmt && decide (bits w 10 0 = 0) && ([v.a, v.b, v.c].drop nsrc).all (fun sp => decide (sp = 0))) 0x0A
    vecDstCheck c v.d 1 v.fmt
    let ts ← ([v.a, v.b, v.c].take nsrc).mapM (fun sp => vecSrc c v.ext sp 0 v.fmt)
    let cols := ts.map (fun t => v.fmt.values t.data [])
    let n := 64 * v.fmt.k
    let rnd := vecDraws ((← get).slot c.key).seed (← vecTile c v 0 0) n
    let rows := columns .zero n cols
    let es := List.zipWith (fun vs r => fn v.fmt v.cv vs r) rows rnd
    let _ ← deliver c v 0 es (ts.any (·.sat)) 0 (decide (v.fmt = .int32))

/-- An element-wise instruction whose exact result is rounded once (R234 to R236). -/
def vecExact (w x : Word) (fmts : List Fmt) (nsrc : Nat) (fn : List Val → Val) (c : Cx) : Act Unit :=
  vecMap w x fmts nsrc (fun f cv vs r => f.convert1 cv r (fn vs)) c

/-- The encoding check that VEC opcodes share: PLEN 0. -/
def vecOk (w : Word) : Bool := decide (bits w 52 48 = 0)

/-- The `i`th source of an element. -/
def arg (vs : List Val) (i : Nat) : Val := nth vs .zero i

def execVecAdd (m : Member) (w x : Word) (s : State) : Host.Outcome State Fault Refusal :=
  s.upd (issue m w 4 0x00 (vecOk w) (vecExact w x vecAdd4 2 (fun v => (arg v 0).add (arg v 1))))

def execVecSub (m : Member) (w x : Word) (s : State) : Host.Outcome State Fault Refusal :=
  s.upd (issue m w 4 0x01 (vecOk w) (vecExact w x vecAdd4 2 (fun v => (arg v 0).add (arg v 1).neg)))

def execVecMul (m : Member) (w x : Word) (s : State) : Host.Outcome State Fault Refusal :=
  s.upd (issue m w 4 0x02 (vecOk w) (vecExact w x vecAdd4 2 (fun v => (arg v 0).mul (arg v 1))))

def execVecFma (m : Member) (w x : Word) (s : State) : Host.Outcome State Fault Refusal :=
  s.upd (issue m w 4 0x03 (vecOk w) (vecExact w x vecFp 3 (fun v => ((arg v 0).mul (arg v 1)).add (arg v 2))))

def execVecMin (m : Member) (w x : Word) (s : State) : Host.Outcome State Fault Refusal :=
  s.upd (issue m w 4 0x04 (vecOk w) (vecExact w x vecMin6 2 (fun v => vmin (arg v 0) (arg v 1))))

def execVecMax (m : Member) (w x : Word) (s : State) : Host.Outcome State Fault Refusal :=
  s.upd (issue m w 4 0x05 (vecOk w) (vecExact w x vecMin6 2 (fun v => vmax (arg v 0) (arg v 1))))

/-- R235, R236: the magnitude of a value. -/
def execVecAbs (m : Member) (w x : Word) (s : State) : Host.Outcome State Fault Refusal :=
  s.upd (issue m w 4 0x06 (vecOk w) (vecExact w x vecMin6 1 (fun v => (arg v 0).withSign false)))

/-- R74: an integer zero has no sign. -/
def execVecNeg (m : Member) (w x : Word) (s : State) : Host.Outcome State Fault Refusal :=
  s.upd (issue m w 4 0x07 (vecOk w) (vecExact w x vecMin6 1 (fun v => (arg v 0).neg)))

/-- RCP (R238, R240). -/
def execVecRcp (m : Member) (w x : Word) (s : State) : Host.Outcome State Fault Refusal :=
  s.upd (issue m w 4 0x08 (vecOk w) (vecMap w x vecFp 1 (fun f cv vs r =>
    let q := fnRcp (arg vs 0)
    f.convert1 cv r q.1 q.2)))

/-- RSQ (R238, R240). -/
def execVecRsq (m : Member) (w x : Word) (s : State) : Host.Outcome State Fault Refusal :=
  s.upd (issue m w 4 0x09 (vecOk w) (vecMap w x vecFp 1 (fun f cv vs r =>
    let q := fnRsq (arg vs 0)
    f.convert1 cv r q.1 q.2)))

/-- R239: a transcendental whose FP32 result is rounded to the destination; to FP32 only under RNE. -/
def vecTrans (w x : Word) (fn : Val → Nat × Nat) (c : Cx) : Act Unit := do
  need (bits w 47 44 ≠ 0 || decide (bits w 43 41 = 0)) 0x0A
  vecMap w x vecFp 1 (fun f cv vs r =>
    let q := fn (arg vs 0)
    if f = .fp32 then q else f.convert1 cv r (ofF32 q.1)) c

def execVecExp (m : Member) (w x : Word) (s : State) : Host.Outcome State Fault Refusal :=
  s.upd (issue m w 4 0x0A (vecOk w) (vecTrans w x fnExp))

def execVecLog (m : Member) (w x : Word) (s : State) : Host.Outcome State Fault Refusal :=
  s.upd (issue m w 4 0x0B (vecOk w) (vecTrans w x fnLog))

def execVecTanh (m : Member) (w x : Word) (s : State) : Host.Outcome State Fault Refusal :=
  s.upd (issue m w 4 0x0C (vecOk w) (vecTrans w x fnTanh))

/-- SEL (R248). -/
def execVecSel (m : Member) (w x : Word) (s : State) : Host.Outcome State Fault Refusal :=
  s.upd (issue m w 4 0x0D (vecOk w) (vecExact w x vecMin6 3 (fun v => if (arg v 2).isZero then arg v 1 else arg v 0)))

/-! ### Compares and masks -/

/-- R246. -/
def cmpVal (cc : Nat) (a b : Val) : Bool :=
  if a.isNan || b.isNan then decide (cc = 1 ∨ cc = 6)
  else match cc with
    | 0 => decide (a.cmp b = 0)
    | 1 => decide (a.cmp b ≠ 0)
    | 2 => decide (a.cmp b < 0)
    | 3 => decide (a.cmp b ≤ 0)
    | 4 => decide (a.cmp b > 0)
    | 5 => decide (a.cmp b ≥ 0)
    | _ => false

/-- R247: the 64 row bits of a compare, for any or for every selected element. -/
def rowBits (m : BitVec 256) (mrow : Bool) (k : Nat) (every : Bool) (rs : List Bool) : Nat :=
  (List.range 64).foldl (fun a r =>
    let sel := (List.range k).filter (fun j => selected m mrow (64 * k) k (r * k + j))
    let v := if every then sel.all (fun j => nth rs false (r * k + j)) else sel.any (fun j => nth rs false (r * k + j))
    if v then a ||| 2 ^ r else a) 0

/-- VEC.CMP (R246, R247). -/
def vecCmp (w x : Word) (c : Cx) : Act Unit := do
  match vecFields w x with
  | none => throw 0x0A
  | some v =>
    let cc := bits w 10 8
    let cdst := bits w 7 6
    need (vecMin6.contains v.fmt && decide (cc ≠ 7) && decide (cdst ≠ 3) && decide (bits w 5 0 = 0) && decide (v.c = 0) &&
      (decide (cdst = 0) || decide (1 ≤ v.d ∧ v.d ≤ 7))) 0x0A
    if cdst = 0 then vecDstCheck c v.d 1 v.fmt
    let ta ← vecSrc c v.ext v.a 0 v.fmt
    let tb ← vecSrc c v.ext v.b 0 v.fmt
    let rs := List.zipWith (cmpVal cc) (v.fmt.values ta.data []) (v.fmt.values tb.data [])
    if cdst = 0 then
      let _ ← deliver c v 0 (rs.map (fun b => v.fmt.convert1 v.cv 0 (.ofInt (b2n b)))) (ta.sat || tb.sat) 0 false
    else
      let b ← get
      modSlot c.key (fun s => s.setM v.d (BitVec.ofNat 256 (rowBits ((b.slot c.key).mask v.mkf) v.mrow v.fmt.k (decide (cdst = 2)) rs)))

def execVecCmp (m : Member) (w x : Word) (s : State) : Host.Outcome State Fault Refusal :=
  s.upd (issue m w 4 0x0E (vecOk w) (vecCmp w x))

/-- R249: the value a mask operation delivers. -/
def mopVal (fn : Nat) (a b : BitVec 256) : BitVec 256 :=
  match fn with
  | 0 => a &&& b
  | 1 => a ||| b
  | 2 => a ^^^ b
  | 3 => a &&& ~~~b
  | _ => ~~~a

/-- R249, R254, R255: the encoding of VEC.MOP. -/
def mopOk (w : Word) : Bool :=
  wordOk w false (0, 0) && decide (bits w 47 44 = 0) && decide (bits w 43 41 ≠ 7) && decide (bits w 7 0 = 0) && decide (bits w 16 11 = 0) &&
  decide (bits w 10 8 ≤ 4) && decide (bits w 34 32 = 0) && decide (bits w 28 26 = 0) && decide (bits w 22 20 = 0) &&
  decide (bits w 34 29 ≠ 0) && (decide (bits w 10 8 ≠ 4) || decide (bits w 22 17 = 0))

/-- VEC.MOP (R249). -/
def execVecMop (m : Member) (w : Word) (s : State) : Host.Outcome State Fault Refusal :=
  s.upd (issue m w 4 0x12 (mopOk w) (fun c => modSlot c.key (fun s =>
    s.setM (bits w 34 29) (mopVal (bits w 10 8) (s.mask (bits w 28 23)) (s.mask (bits w 22 17))))))

/-! ### Conversions -/

/-- R242: how many source tiles are read and destination tiles written. -/
def runCounts (src dst : Fmt) : Nat × Nat := (max (dst.k / src.k) 1, max (src.k / dst.k) 1)

/-- Put source tiles side by side (R242): 64 rows. -/
def sideBySide (k : Nat) (tiles : List (List Val)) : List (List Val) :=
  let ts := tiles.map (chunk k 64)
  (List.range 64).map (fun r => (ts.map (fun t => nth t [] r)).flatten)

/-- The columns of destination tile `i`. -/
def cutCols (kd i : Nat) (rows : List (List Val)) : List Val := (rows.map (fun r => (r.drop (i * kd)).take kd)).flatten

/-- R243: the 32-element blocks of an MX destination with their masked-off elements: quantized whole, the kept or zeroed ones
not counted. -/
def mxTile (f : Fmt) (cv : Conv) (sel : Nat → Bool) (vals : List Val) (rnd : List Nat) : TileOut :=
  let n := 2 * f.k
  let bs := List.zipWith (fun (i : Nat) (p : List Val × List Nat) =>
    let q := quantBlock f cv.rule cv.rm p.2 p.1
    (q, q.cats.headD 0 :: ((List.zip (List.range 32) (q.cats.drop 1)).filter (fun e => sel (32 * i + e.1))).map (·.2)))
    (List.range n) (List.zip (chunk 32 n vals) (chunk 32 n rnd))
  ⟨f.pack (bs.map (·.1.codes)).flatten, bs.map (fun b => BitVec.ofNat 8 b.1.scale), (bs.map (·.2)).flatten⟩

/-- Deliver one converted destination tile (R233, R243).  Answers the categories counted. -/
def cvtDeliver (c : Cx) (v : VecF) (i : Nat) (cv : Conv) (vals : List Val) (rnd : List Nat) (sat : Bool) (empty : Word) :
    Act (List Nat) := do
  let k := v.fmt.k
  if v.fmt.isMx then
    let m := ((← get).slot c.key).mask v.mkf
    let part := maskedOff m v.mrow k
    let old ← if part && !v.mz then do
        let va := ((← sreg c (v.d - 0x20)).toNat + i * 8192) % 2 ^ 64
        let f ← rdFrame c va (fun b => b.near c)
        need (headerIs f.hdr v.fmt) 0x0A
        pure (v.fmt.values f.data f.side)
      else pure (List.replicate (64 * k) Val.zero)
    let sel (e : Nat) : Bool := decide (m = -1) || selected m v.mrow (64 * k) k e
    let mixed := if part then List.zipWith (fun e (p : Val × Val) => if sel e then p.1 else p.2) (List.range (64 * k)) (List.zip vals old) else vals
    let out := mxTile v.fmt cv sel mixed rnd
    wrTile c v.d i v.fmt ⟨out.data, out.side, sat, empty⟩
    pure out.cats
  else deliver c v i (List.zipWith (fun x r => v.fmt.convert1 cv r x) vals rnd) sat empty false

/-- R243: where masked-off elements of an MX destination keep their values, every frame of the run must carry FMT already. -/
def keptHeaders (c : Cx) (v : VecF) (n : Nat) : Act Unit := do
  if v.fmt.isMx && !v.mz && maskedOff (((← get).slot c.key).mask v.mkf) v.mrow v.fmt.k then
    (List.range n).forM (fun i => do
      let (a, _) ← wrAddr c ((← sreg c (v.d - 0x20)).toNat + i * 8192)
      need (headerIs ((← get).fmeta (a / 8192)).hdr v.fmt) 0x0A)

/-- VEC.CVT (R241 to R244). -/
def vecCvt (w x : Word) (c : Cx) : Act Unit := do
  match vecFields w x, Fmt.ofCode (bits w 10 7) with
  | some v, some sf =>
    need (decide (bits w 5 0 = 0) && decide (v.b = 0 ∧ v.c = 0) && !v.fmt.isInt4 &&
      (!sf.isInt4 || decide (v.fmt = .bf16 ∨ v.fmt = .e4m3 ∨ v.fmt = .e5m2)) && (sf.inReg || (Spec.of v.a).isMem)) 0x0A
    let (nr, nw) := runCounts sf v.fmt
    vecDstCheck c v.d nw v.fmt
    keptHeaders c v nw
    let ts ← (List.range nr).mapM (fun i => vecSrc c v.ext v.a i sf)
    let rows := sideBySide sf.k (ts.map (fun t => sf.values t.data t.side))
    let cv : Conv := if sf.isInt4 then ⟨.rne, true, .floor⟩ else ⟨v.cv.rm, v.cv.sat, if bit w 6 then .fit else .floor⟩
    let sat := ts.any (·.sat)
    let empty := ts.foldl (fun e t => e ||| t.empty) 0
    (List.range nw).forM (fun i => do
      let seed := ((← get).slot c.key).seed
      let rnd := vecDraws seed (← vecTile c v i (i * v.fmt.k * sf.bits / 8)) (64 * v.fmt.k)
      let cats ← cvtDeliver c v i cv (cutCols v.fmt.k i rows) rnd sat empty
      census c 2 v.fmt cats)
  | _, _ => throw 0x0A

def execVecCvt (m : Member) (w x : Word) (s : State) : Host.Outcome State Fault Refusal :=
  s.upd (issue m w 4 0x0F (vecOk w) (vecCvt w x))

/-- A vector operand: `n` FP32 values at a 256-byte aligned address (R229; log entry 22). -/
def vecVector (c : Cx) (sp n : Nat) : Act (List Val) := do
  match Spec.of sp with
  | .mem r =>
    let va := (← sreg c r).toNat
    need (va % 256 = 0) 0x0A
    pure (f32s (← rdBytes c va (4 * n) (fun b => b.near c)) n)
  | _ => throw 0x0A

/-- VEC.EXPAND (R256). -/
def vecExpand (w x : Word) (c : Cx) : Act Unit := do
  match vecFields w x with
  | none => throw 0x0A
  | some v =>
    need (!bit w 53 && vecMin6.contains v.fmt && decide (bits w 9 0 = 0) && decide (v.b = 0 ∧ v.c = 0)) 0x0A
    vecDstCheck c v.d 1 v.fmt
    let k := v.fmt.k
    let vs ← vecVector c v.a (if bit w 10 then k else 64)
    let rnd := vecDraws ((← get).slot c.key).seed (← vecTile c v 0 0) (64 * k)
    let es := List.zipWith (fun e r => v.fmt.convert1 v.cv r (nth vs .zero (if bit w 10 then e % k else e / k))) (List.range (64 * k)) rnd
    let cats ← deliver c v 0 es false 0 false
    census c 2 v.fmt cats

def execVecExpand (m : Member) (w x : Word) (s : State) : Host.Outcome State Fault Refusal :=
  s.upd (issue m w 4 0x10 (vecOk w) (vecExpand w x))

/-! ### Normalisation -/

/-- R251: is position (r, c) of a run of `kr` columns excluded? -/
def normExcluded (msk : Nat) (reg : Word) (bm kr r c : Nat) : Bool :=
  match msk with
  | 1 => decide (bits reg 31 0 + r < bits reg 63 32 + c)
  | 2 => bm.testBit (r * max kr 64 + c)
  | _ => false

/-- FP32 results with RNE. -/
def rcp32 (v : Val) : Val := let q := fnRcp v; ofF32 (toF32 q.1 q.2)
def rsq32 (v : Val) : Val := let q := fnRsq v; ofF32 (toF32 q.1 q.2)
def exp32 (v : Val) : Val := ofF32 (fnExp v).1

/-- R114, R252: one normalised row and its empty flag.  `st` are the row's three statistics. -/
def normRow (kind : Nat) (x : Word) (st : Val × Val × Val) (row : List (Val × Bool)) : List Val × Bool :=
  let eps := ofF32 (bits x 31 0)
  match kind with
  | 0 =>
    let m := st.1
    if m.isNan then (row.map (fun _ => .nan), false)
    else if m = .inf true then (row.map (fun _ => .zero), true)
    else if m = .inf false then (row.map (fun p => if !p.2 && decide (p.1 = .inf false) then rcp32 st.2.1 else .zero), false)
    else (row.map (fun p => if p.2 then .zero else fmul (exp32 (fadd p.1 m.neg)) (rcp32 st.2.1)), false)
  | 1 =>
    if st.1.isZero then (row.map (fun _ => .zero), true)
    else
      let inv := rsq32 (fadd (fmul st.2.2 (rcp32 st.1)) eps)
      (row.map (fun p => if p.2 then .zero else fmul (fadd p.1 st.2.1.neg) inv), false)
  | _ =>
    let inv := rsq32 (fadd (fmul st.1 (rcp32 (rne32 (.ofInt (bits x 63 32))))) eps)
    (row.map (fun p => if p.2 then .zero else fmul p.1 inv), false)

/-- R250: the format in which VEC.NORM reads its source. -/
def normFmt (c : Cx) (sp : Nat) : Act Fmt := do
  match Spec.of sp with
  | .reg n => pure ((((((← get).slot c.key).t.toList[n]?).getD {}).fmt).getD .fp32)
  | .mem n =>
    let f ← rdFrame c (← sreg c n).toNat (fun b => b.near c)
    match Fmt.ofCode f.hdr.fmt.toNat with
    | some g => pure g
    | none => throw 0x0A
  | _ => throw 0x0A

/-- VEC.NORM (R250 to R253, R257). -/
def vecNorm (w x : Word) (c : Cx) : Act Unit := do
  match vecFields w x with
  | none => throw 0x0A
  | some v =>
    let kind := bits w 10 9
    let msk := bits w 8 7
    need (([Fmt.fp32, .bf16, .fp16, .e4m3, .e5m2]).contains v.fmt && decide (kind ≠ 3) && decide (msk ≠ 3) &&
      decide (bits w 6 0 = 0) && (bit w 53 == decide (kind ≠ 0)) && decide (v.mkf = 0) && !v.mrow && !v.mz &&
      (Spec.of v.b).isMem && (if msk = 0 then decide (v.c = 0) else (Spec.of v.c).isMem) &&
      (decide (kind ≠ 2) || decide (bits x 63 32 ≠ 0)) && (decide (kind ≠ 1) || decide (bits x 63 32 = 0))) 0x0A
    let sf ← normFmt c v.a
    need (vecFp.contains sf) 0x0A
    let (nr, nw) := runCounts sf v.fmt
    vecDstCheck c v.d nw v.fmt
    let ts ← (List.range nr).mapM (fun i => vecSrc c none v.a i sf)
    let rows := sideBySide sf.k (ts.map (fun t => sf.values t.data []))
    let kr := max sf.k v.fmt.k
    let st ← vecVector c v.b (if kind = 2 then 64 else if kind = 0 then 128 else 192)
    let reg ← sreg c (v.c - 0x20)
    need (msk ≠ 2 || decide (reg.toNat % 512 = 0)) 0x0A
    let bm ← if msk = 2 then rdBytes c reg.toNat (8 * max kr 64) (fun b => b.near c) else pure []
    let n := leNat bm
    let outs := List.zipWith (fun r row => normRow kind x (nth st .zero r, nth st .zero (64 + r), nth st .zero (128 + r))
      (List.zipWith (fun j e => (e, normExcluded msk reg n kr r j)) (List.range kr) row)) (List.range 64) rows
    let empty := (List.zip (List.range 64) outs).foldl (fun a p => if p.2.2 then a ||| 2 ^ p.1 else a) 0
    (List.range nw).forM (fun i => do
      let rnd := vecDraws ((← get).slot c.key).seed (← vecTile c v i (i * v.fmt.k * sf.bits / 8)) (64 * v.fmt.k)
      let cats ← deliver c v i (List.zipWith (fun e r => v.fmt.convert1 v.cv r e) (cutCols v.fmt.k i (outs.map (·.1))) rnd)
        (ts.any (·.sat)) (word empty) false
      census c 2 v.fmt cats)

def execVecNorm (m : Member) (w x : Word) (s : State) : Host.Outcome State Fault Refusal :=
  s.upd (issue m w 4 0x11 (vecOk w) (vecNorm w x))

end Sys2Proof.Machine
end

