-- ==== Sys2Proof/Machine/Red.lean ====
section
/-! DEFINITION. The RED class and reduce-on-arrival (05_vector_and_reduction.md R260 to R282). -/
namespace Sys2Proof.Machine

/-! ### RED.RDC -/

/-- R261: the results of one reduction over the positions that take part; up to three values. -/
def reduce (fn : Nat) (l : List Val) : Val × Val × Val :=
  match fn with
  | 0 => (rne32 (exactSum l), .zero, .zero)
  | 1 => (l.foldl vmax (.inf true), .zero, .zero)
  | 2 => (l.foldl vmin (.inf false), .zero, .zero)
  | 3 => ((l.map (Val.withSign false)).foldl vmax .zero, .zero, .zero)
  | 4 => (rne32 (exactSq l), .zero, .zero)
  | 5 => let t := rowStats l; (t.1, t.2, .zero)
  | _ => let t := meanVar l; (t.n, t.mu, t.m2)

/-- R263: combine stored results with new ones. -/
def reduceCombine (fn : Nat) (o t : Val × Val × Val) : Val × Val × Val :=
  match fn with
  | 0 => (fadd o.1 t.1, .zero, .zero)
  | 1 => (vmax o.1 t.1, .zero, .zero)
  | 2 => (vmin o.1 t.1, .zero, .zero)
  | 3 => (vmax o.1 t.1, .zero, .zero)
  | 4 => (fadd o.1 t.1, .zero, .zero)
  | 5 => let x := combineStats (o.1, o.2.1) (t.1, t.2.1); (x.1, x.2, .zero)
  | _ => let x := (MeanVar.mk o.1 o.2.1 o.2.2).combine ⟨t.1, t.2.1, t.2.2⟩; (x.n, x.mu, x.m2)

/-- The results vectors that a function delivers (R262). -/
def reduceVectors (fn : Nat) : Nat := match fn with
  | 5 => 2
  | 6 => 3
  | _ => 1

/-- The lists of values reduced, by direction: rows, columns, or the whole tile (R262). -/
def reduceLists (dir k : Nat) (es : List (Val × Bool)) : List (List Val) :=
  let rows := chunk k 64 es
  let ls := match dir with
    | 0 => rows
    | 1 => columns (.zero, false) k rows
    | _ => [es]
  ls.map (fun l => (l.filter (·.2)).map (·.1))

/-- RED.RDC (R261 to R263). -/
def redRdc (w : Word) (c : Cx) : Act Unit := do
  let dir := bits w 43 42
  let fn := bits w 41 39
  match Fmt.ofCode (bits w 47 44) with
  | none => throw 0x0A
  | some f =>
    need (([Fmt.fp32, .bf16, .fp16, .e4m3, .e5m2]).contains f && decide (dir ≠ 3) && decide (fn ≠ 7) &&
      (decide (fn < 5) || decide (dir = 0))) 0x0A
    let va := (← sreg c (bits w 4 0)).toNat
    need (va % 256 = 0) 0x0A
    let n := if dir = 0 then 64 else if dir = 1 then f.k else 1
    let nv := reduceVectors fn
    wrCheck c va (256 * (nv - 1) + 4 * n) (fun b => b.near c)
    let t ← vecSrc c none (bits w 33 28) 0 f
    let m := ((← get).slot c.key).mask (bits w 37 35)
    let vals := f.values t.data []
    let es := List.zipWith (fun e v => (v, selected m (bit w 34) (64 * f.k) f.k e)) (List.range (64 * f.k)) vals
    let rs := (reduceLists dir f.k es).map (reduce fn)
    let old ← if bit w 38 then do
        let bs ← rdBytes c va (256 * (nv - 1) + 4 * n) (fun b => b.near c)
        let v := f32s bs (64 * (nv - 1) + n)
        pure ((List.range n).map (fun i => (nth v .zero i, nth v .zero (64 + i), nth v .zero (128 + i))))
      else pure []
    let rs := if bit w 38 then List.zipWith (reduceCombine fn) old rs else rs
    wrBytes c va (f32Bytes (f32Codes (rs.map (·.1))))
    if 2 ≤ nv then wrBytes c (va + 256) (f32Bytes (f32Codes (rs.map (·.2.1))))
    if 3 ≤ nv then wrBytes c (va + 512) (f32Bytes (f32Codes (rs.map (·.2.2))))

def execRedRdc (m : Member) (w : Word) (s : State) : Host.Outcome State Fault Refusal :=
  s.upd (issue m w 5 0x00 (wordOk w false (0, 0) &&
    rsvdOk w [(47, 44), (43, 42), (41, 39), (38, 38), (37, 35), (34, 34), (33, 28), (4, 0)]) (redRdc w))

/-! ### Adding tiles -/

/-- R264: do a source and a destination format pair? -/
def addPair (src dst : Fmt) : Bool :=
  decide (dst = .fp32 ∨ dst = .bf16 ∨ dst = .int32) &&
  (decide (src = dst) || (decide (dst = .fp32) && decide (src = .bf16 ∨ src = .fp16)))

/-- R265: does the addition write two destination tiles? -/
def addTwo (src dst : Fmt) : Bool := decide (src ≠ dst)

/-- R264: element-wise sum in the destination format, and whether an INT32 element saturated. -/
def addCodes (f : Fmt) (a d : List Val) : List Nat × Bool :=
  let es := List.zipWith (fun x y => f.convert1 ⟨.rne, false, .floor⟩ 0 (x.add y)) a d
  (es.map (·.1), decide (f = .int32) && es.any (fun e => e.2.testBit 6))

/-- The values of a source that go to destination tile `i` (R265). -/
def addPart (src : Fmt) (two : Bool) (i : Nat) (vals : List Val) : List Val :=
  if two then cutCols 32 i (chunk src.k 64 vals) else vals

/-- RED.ADD (R264, R265). -/
def redAdd (w : Word) (c : Cx) : Act Unit := do
  match Fmt.ofCode (bits w 47 44), Fmt.ofCode (bits w 43 40) with
  | some f, some sf =>
    need (addPair sf f) 0x0A
    let two := addTwo sf f
    let n := if two then 2 else 1
    let d := bits w 27 22
    vecDstCheck c d n f
    let t ← vecSrc c none (bits w 33 28) 0 sf
    let ds ← (List.range n).mapM (fun i => vecSrc c none d i f)
    (List.zipWith (fun i x => (i, x)) (List.range n) ds).forM (fun ix => do
      let (codes, s) := addCodes f (addPart sf two ix.1 (sf.values t.data [])) (f.values ix.2.data [])
      wrTile c d ix.1 f ⟨f.pack codes, [], t.sat || ix.2.sat || s, 0⟩)
  | _, _ => throw 0x0A

def execRedAdd (m : Member) (w : Word) (s : State) : Host.Outcome State Fault Refusal :=
  s.upd (issue m w 5 0x01 (wordOk w false (0, 0) && rsvdOk w [(47, 44), (43, 40), (33, 28), (27, 22)]) (redAdd w))

/-! ### Landings -/

/-- R268: header word 0 of a landing's record. -/
def Landing.word0 (l : Landing) (state : Nat) : Nat :=
  l.ltag.toNat <<< 48 ||| b2n l.poison <<< 47 ||| state <<< 40 ||| l.expect <<< 32 ||| l.refused

/-- Write word `i` of a landing's record: the reduction unit's own word, which no pin stops. -/
def landWord (l : Landing) (i : Nat) (v : Nat) : Act Unit :=
  quietly (do
    let (a, r) ← engineAddr ⟨none⟩ (nth l.recPas 0 i)
    writeLinesAt a r (natLe 8 v))

def Slot.land (s : Slot) (j : Nat) : Landing := (s.lands.toList[j]?).getD {}
def setLand (k j : Nat) (l : Landing) : Act Unit := modSlot k (fun s => { s with lands := s.lands.setIfInBounds j l })

/-- R273: does every tile hold EXPECT bits?  Indices of a lost position do not count (R604; log entry 37). -/
def Landing.full (l : Landing) : Bool := l.bits.all (fun m => decide (l.expect ≤ popcount (m - (m &&& l.skip)) 64))

/-- Is the landing armed? -/
def Landing.armed (l : Landing) : Bool := decide (l.st = .armed)

/-- The landings of a cluster: slot, entry, landing. -/
def Blk.clusterLands (b : Blk) (d q : Nat) : List (Nat × Nat × Landing) :=
  b.slots.flatMap (fun ks =>
    if keyDie ks.1 = d ∧ keyPhys ks.1 / 4 = q then (List.range 8).map (fun j => (ks.1, j, ks.2.land j)) else [])

/-- The cluster that a store address lies in. -/
def Region.clusterOf : Region → Option (Nat × Nat)
  | .store d p => some (d, p / 4)
  | .cluster d q => some (d, q)
  | _ => none

/-- R273, R274, R756: a landing completes (state 1) or closes short (state 2): the record, the signal, the trace. -/
def endLanding (k j state : Nat) : Act Unit := do
  let b ← get
  let s := b.slot k
  let l := { s.land j with st := if state = 1 then .complete else .closed }
  setLand k j l
  landWord l 0 (l.word0 state)
  landWord l 1 b.now
  if l.coll.isNone then giveSignal s.part.toNat l.obj (word l.value) s.ctx.toNat
  modify (·.trace k 6 s.lastPc (l.word0 state))

/-- A frame of zeros with the landing's format, written for its member (R270, R274, R287). -/
def landHeader (s : Slot) (f : Fmt) : Header :=
  { fmt := BitVec.ofNat 4 f.code, klog2 := BitVec.ofNat 4 f.klog2, part := s.part, layer := s.layer, oper := s.oper }

/-- Write a frame of a store or an HBM tile at its physical address. -/
def putFrame (a : Nat) (x : Frame) : Act Unit := do
  let (a, r) := (← get).resolve a
  writeFrameAt a r x

/-- R274: close an armed landing. -/
def closeLanding (k j : Nat) : Act Unit := do
  let s := (← get).slot k
  let l := s.land j
  if l.armed then
    if l.init then
      (List.zip l.frames l.bits).forM (fun fb => if fb.2 = 0 then putFrame (fb.1 * 8192) { hdr := landHeader s l.fmt } else pure ())
    endLanding k j 2

/-- R275: discard the armed landings of a slot; with `all`, also remove its completed and closed entries. -/
def discardLandings (k : Nat) (all : Bool) : Act Unit :=
  (List.range 8).forM (fun j => do
    let l := ((← get).slot k).land j
    if l.armed then
      landWord l 0 (l.word0 3)
      setLand k j {}
    else if all then setLand k j {})

/-- The physical addresses of `n` consecutive words from a member's virtual address that it may write near. -/
def wordAddrs (c : Cx) (va n : Nat) : Act (List Nat) :=
  (piecesOf va (8 * n)).foldlM (fun acc p => do
    let (a, r) ← wrAddr c p.1 p.2
    need ((← get).near c a r) 0x02
    pure (acc ++ (List.range (p.2 / 8)).map (fun i => a + 8 * i))) []

/-- RED.ARM (R266 to R268, R407, R786). -/
def redArm (w x : Word) (c : Cx) : Act Unit := do
  let b ← get
  let j := bits w 47 45
  match Fmt.ofCode (bits w 44 41) with
  | none => throw 0x0A
  | some f =>
    let va := (b.sreg c.key (bits w 9 5)).toNat
    let rec' := (b.sreg c.key (bits w 4 0)).toNat
    let tiles := bits x 9 0 + 1
    need (decide (f = .fp32 ∨ f = .bf16 ∨ f = .int32) && decide (bits w 31 16 ≠ 0) && !((b.slot c.key).land j).armed &&
      decide (rec' % 64 = 0) && decide (va % 8192 = 0)) 0x0A
    need (b.ownsSync c.part (bits x 63 50)) 0x02
    let frames ← (List.range tiles).mapM (fun i => do
      let p ← translate c.part (va + i * 8192) .wr
      need (!(← get).pinned ((← get).resolve p).1) 0x0A
      let (a, r) ← wrAddr c (va + i * 8192)
      need ((← get).near c a r) 0x02
      pure (a / 8192))
    let recs ← wordAddrs c rec' (2 + tiles)
    let others := (b.clusterLands c.die (c.p / 4)).filter (fun y => y.2.2.armed)
    need (others.all (fun y => y.2.2.frames.all (fun g => !frames.contains g))) 0x0A
    let l : Landing := {
      st := .armed, frames := frames, fmt := f, ltag := BitVec.ofNat 16 (bits w 31 16), expect := bits w 39 34 + 1,
      init := bit w 40, recPas := recs, obj := bits x 63 50, value := bits x 49 18, bits := List.replicate tiles 0 }
    setLand c.key j l
    landWord l 0 (l.word0 0)
    (List.range (tiles + 1)).forM (fun i => landWord l (i + 1) 0)

def execRedArm (m : Member) (w x : Word) (s : State) : Host.Outcome State Fault Refusal :=
  s.upd (issue m w 5 0x02 (wordOk w true (0, 0) &&
    rsvdOk w [(47, 45), (44, 41), (40, 40), (39, 34), (31, 16), (9, 5), (4, 0)] && rsvdExt x [(63, 50), (49, 18), (9, 0)]) (redArm w x))

/-- RED.CLS (R274, R278). -/
def execRedCls (m : Member) (w : Word) (s : State) : Host.Outcome State Fault Refusal :=
  s.upd (issue m w 5 0x04 (wordOk w false (0, 0) && rsvdOk w [(47, 45)]) (fun c => closeLanding c.key (bits w 47 45)))

/-! ### Arrivals -/

/-- Add a contribution into one frame: the first under INIT is converted and written, later ones are added (R264, R270 to
R272). -/
def addInto (a : Nat) (f : Fmt) (part : List Val) (src : Header) (fresh : Option Header) : Act Unit := do
  let (a, r) := (← get).resolve a
  match fresh with
  | some h =>
    let es := part.map (f.convert1 ⟨.rne, false, .floor⟩ 0)
    writeFrameAt a r ⟨{ h with sat := src.sat, poison := src.poison }, [], f.pack (es.map (·.1))⟩
  | none =>
    let (d, st) ← readFrameAt a r
    let (codes, s) := addCodes f part (f.values d.data [])
    let h := {
      d.hdr with
      fmt := BitVec.ofNat 4 f.code, klog2 := BitVec.ofNat 4 f.klog2, sat := d.hdr.sat || src.sat || s,
      poison := d.hdr.poison || src.poison || decide (st ≠ 0) }
    writeFrameAt a r ⟨h, d.side, f.pack codes⟩

/-- R269 row 4, R562: a tile atomic add with tag 0 where no landing covers. -/
def atomicTile (x : Arrival) (a : Nat) (r : Region) (sf : Fmt) : Act Nat := do
  if (← get).pinned a then return 0x02
  let (d, _) ← readFrameAt a r
  match Fmt.ofCode d.hdr.fmt.toNat with
  | none => pure 0x0A
  | some f =>
    if !addPair sf f || !headerIs d.hdr f || x.dfmt.any (fun g => decide (g.toNat ≠ f.code)) then pure 0x0A
    else
      let two := addTwo sf f
      let vals := sf.values x.f.data []
      if two then
        let (a2, r2) := (← get).resolve (a + 8192)
        if !(r2.isStore || r2.isTier) || (← get).pinned a2 then pure 0x02
        else
          let (d2, _) ← readFrameAt a2 r2
          if !headerIs d2.hdr f then pure 0x0A
          else
            addInto a f (addPart sf true 0 vals) x.f.hdr none
            addInto a2 f (addPart sf true 1 vals) x.f.hdr none
            pure 0
      else
        addInto a f vals x.f.hdr none
        pure 0

/-- A refusal counted for a landing (R269, R270) and its core. -/
def refuse (k j : Nat) (l : Landing) (inRecord : Bool) (st : Nat) : Act Nat := do
  if inRecord then
    let l := { l with refused := min (l.refused + 1) (2 ^ 32 - 1) }
    setLand k j l
    landWord l 0 (l.word0 (match l.st with
      | .armed => 0
      | .complete => 1
      | _ => 2))
  countFld (Reg.vecRedCnt (keyDie k) (keyPhys k)) 31 0 1
  pure st

/-- R269 row 1, R270 to R273: an armed landing with the tag takes the tile, or refuses its format. -/
def landTile (k j t : Nat) (l : Landing) (x : Arrival) (sf : Fmt) : Act Nat := do
  let two := decide (sf ≠ l.fmt)
  let pairOk := decide (sf = l.fmt) || (decide (sf = .bf16) && decide (l.fmt = .fp32) && decide (t % 2 = 0) && decide (t + 1 < l.frames.length))
  if !pairOk || x.dfmt.any (fun g => decide (g.toNat ≠ l.fmt.code)) then refuse k j l true 0x0A
  else if two && (nth l.bits 0 (t + 1)).testBit x.idx.toNat then refuse k j l true 0x0B
  else
    let s := (← get).slot k
    let vals := sf.values x.f.data []
    let put (i : Nat) : Act Unit :=
      addInto (nth l.frames 0 (t + i) * 8192) l.fmt (addPart sf two i vals) x.f.hdr
        (if l.init ∧ nth l.bits 0 (t + i) = 0 then some (landHeader s l.fmt) else none)
    put 0
    if two then put 1
    let bits1 := setNth l.bits t (nth l.bits 0 t ||| 2 ^ x.idx.toNat)
    let bits2 := if two then setNth bits1 (t + 1) (nth bits1 0 (t + 1) ||| 2 ^ x.idx.toNat) else bits1
    let l' := { l with bits := bits2, poison := l.poison || x.f.hdr.poison }
    setLand k j l'
    landWord l' (2 + t) (nth bits2 0 t)
    if two then landWord l' (3 + t) (nth bits2 0 (t + 1))
    if l'.poison && !l.poison then landWord l' 0 (l'.word0 0)
    countFld (Reg.vecRedCnt (keyDie k) (keyPhys k)) 63 32 1
    if l'.full then endLanding k j 1
    pure 0

/-- R269 to R273, R587, R589: an arriving tile is added (0x00) or refused (0x0B, 0x0A).  `x.addr` is a physical address. -/
def arrive (x : Arrival) : Act Nat := do
  let b ← get
  let (a, r) := b.resolve x.addr
  match Fmt.ofCode x.sfmt.toNat with
  | none => pure 0x0A
  | some sf =>
    match r.clusterOf with
    | none => if !r.isTier || decide (r = .ddr) then pure 0x0A else if x.tag = 0 then atomicTile x a r sf else pure 0x0B
    | some (d, q) =>
      let cover := (b.clusterLands d q).filter (fun y => decide (y.2.2.st ≠ .none) && y.2.2.frames.contains (a / 8192))
      match (cover.find? (fun y => y.2.2.armed)).or cover.head? with
      | none => if x.tag = 0 then atomicTile x a r sf else pure 0x0B
      | some (k, j, l) =>
        let t := l.frames.idxOf (a / 8192)
        if l.ltag ≠ x.tag then refuse k j l false 0x0B
        else if !l.armed || (nth l.bits 0 t).testBit x.idx.toNat || l.admitted.any (fun m => !m.testBit x.idx.toNat) ||
            (decide (16 ≤ x.idx.toNat) && l.origin.any (fun o => decide (x.origin ≠ some o))) then refuse k j l true 0x0B
        else landTile k j t l x sf

/-- R649: a request that a fenced core sends is dropped and counted; the first one after the fence posts event 0x0F. -/
def staleDrop (d p : Nat) : Act Unit := do
  let c := (← get).core (coreKey d p)
  if c.fenced then
    countFld (Reg.pkgStale d) 63 0 1
    if !c.stale then
      modCore (coreKey d p) (fun c => { c with stale := true })
      post { code := 0x0F, sev := 1, die := d, pcore := p, inc := c.inc.toNat, d0 := p, d1 := ((← get).reg (Reg.pkgStale d)).toNat }

/-- TILE_ARRIVAL (R269, R277): a tile that a core of this die pushed arrives and its push is over; a tile without a pusher
comes from elsewhere.  An arrival at a core that moves waits (R643). -/
def tileArrival (x : Arrival) : Act Unit := do
  let b ← get
  if b.heldStore (b.resolve x.addr).2 then return ()
  match x.pusher with
  | none => let _ ← arrive x
  | some _ =>
    match b.flights.find? (fun f => decide (f.arr = x)) with
    | none => match x.pusher with
      | some (d, p) => staleDrop d.val p.val
      | none => pure ()
    | some f =>
      set { b with flights := b.flights.filter (fun g => decide (g.id ≠ f.id)) }
      let st ← arrive x
      if st ≠ 0 then countFld (Reg.vecRedCnt (keyDie f.slot) (keyPhys f.slot)) 31 0 1
      finish f.id

/-! ### RED.PUSH -/

/-- One source tile of a push: a poisoned one is sent poisoned, its format unchecked (R277). -/
def pushSrc (c : Cx) (sp i : Nat) (f : Fmt) : Act Frame := do
  match Spec.of sp with
  | .mem n =>
    let (fr, st) ← rdFrame' c ((← sreg c n).toNat + i * 8192) (fun b => b.near c)
    need (decide (st = 0 ∨ st = 5)) st
    need (decide (st = 5) || headerIs fr.hdr f) 0x0A
    pure { fr with hdr := { fr.hdr with poison := decide (st = 5) } }
  | _ =>
    let t ← vecSrc c none sp i f
    pure { hdr := { fmt := BitVec.ofNat 4 f.code, klog2 := BitVec.ofNat 4 f.klog2, sat := t.sat }, data := t.data }

/-- RED.PUSH (R276, R277): each tile is on its way until it arrives. -/
def redPush (w : Word) (c : Cx) : Act Unit := do
  match Fmt.ofCode (bits w 47 44) with
  | none => throw 0x0A
  | some f =>
    let b ← get
    need (decide (f = .fp32 ∨ f = .bf16 ∨ f = .fp16 ∨ f = .int32)) 0x0A
    let n := bits w 27 20 + 1
    let va := (b.sreg c.key (bits w 9 5)).toNat
    need (va % 8192 = 0) 0x0A
    let dst ← (List.range n).mapM (fun i => do
      let pa ← translate c.part (va + i * 8192) .wr
      let (_, r) ← wrAddr c (va + i * 8192)
      need (r.clusterOf.any (fun x => decide (x.1 = c.die))) 0x02
      pure pa)
    let fs ← (List.range n).mapM (fun i => pushSrc c (bits w 33 28) i f)
    let tag := BitVec.ofNat 16 (b.sreg c.key (bits w 14 10)).toNat
    (List.zip dst fs).forM (fun p => do
      let id ← begin' c.key c.ctx .push
      let x : Arrival := ⟨p.1, tag, BitVec.ofNat 6 (bits w 39 34), BitVec.ofNat 4 f.code, none, p.2, none,
        some (Fin.ofNat 2 c.die, Fin.ofNat 20 c.p)⟩
      modify (fun b => { b with flights := b.flights ++ [Flight.mk id c.key x] }))

def execRedPush (m : Member) (w : Word) (s : State) : Host.Outcome State Fault Refusal :=
  s.upd (issue m w 5 0x03 (wordOk w false (0, 0) &&
    rsvdOk w [(47, 44), (39, 34), (33, 28), (27, 20), (14, 10), (9, 5)]) (redPush w))

end Sys2Proof.Machine
end

