-- ==== Sys2Proof/Machine/Wire.lean ====
section
/-! DEFINITION. Cragil packets on the wire: the header of R522, the payload of R521, UDP over IPv6 or IPv4 in one Ethernet
frame (R518 to R520), and reading them back (R484). -/
namespace Sys2Proof.Machine

/-- Payload bytes of a whole frame (R521): data, sideband, header (log entry 23). -/
def frameBytes (f : Frame) : List Byte := padTo 8192 f.data ++ padTo 512 f.side ++ headerBytes f.hdr
/-- The frame that 8,768 payload bytes hold. -/
def frameOf (l : List Byte) : Frame := { data := l.take 8192, side := (l.drop 8192).take 512, hdr := headerOf (l.drop 8704) }

/-- The payload of a packet. -/
def pktPayload (p : Packet) : List Byte := match p.frame with
  | some f => frameBytes f
  | none => p.bytes

/-- The 64-byte Cragil header (R522), network order. -/
def cragilHeader (p : Packet) : List Byte :=
  natBe 1 (p.version.toNat <<< 4 ||| b2n p.poison <<< 3 ||| b2n p.first <<< 2 ||| b2n p.last <<< 1 ||| b2n p.retx)
  ++ natBe 1 p.op.toNat ++ natBe 1 (p.cls.toNat <<< 5) ++ natBe 1 p.ttl.toNat
  ++ natBe 2 p.srcPkg.toNat ++ natBe 2 p.dstPkg.toNat ++ natBe 2 p.srcPart.toNat ++ natBe 2 p.dstPart.toNat
  ++ natBe 2 p.srcQp.toNat ++ natBe 2 p.dstQp.toNat ++ natBe 4 p.psn.toNat ++ natBe 4 p.epoch.toNat
  ++ natBe 6 p.key.toNat ++ natBe 2 p.kgen.toNat ++ natBe 1 p.win.toNat ++ natBe 1 p.status.toNat ++ natBe 2 p.len.toNat
  ++ natBe 8 p.addr.toNat ++ natBe 4 p.aux.toNat ++ natBe 8 p.opnd0.toNat ++ natBe 8 p.opnd1.toNat

/-- `n` bytes in network order from offset `o`. -/
def beAt (l : List Byte) (o n : Nat) : Nat := beNat ((l.drop o).take n)

/-- The packet that a UDP payload holds (R521, R522): a payload of 8,768 bytes is a whole frame. -/
def packetOf (l : List Byte) : Packet :=
  let b0 := beAt l 0 1
  let body := (l.drop 64).take (beAt l 34 2)
  {
    version := BitVec.ofNat 4 (b0 / 16), poison := b0.testBit 3, first := b0.testBit 2, last := b0.testBit 1, retx := b0.testBit 0,
    op := BitVec.ofNat 8 (beAt l 1 1), cls := BitVec.ofNat 3 (beAt l 2 1 / 32), ttl := BitVec.ofNat 8 (beAt l 3 1),
    srcPkg := BitVec.ofNat 12 (beAt l 4 2), dstPkg := BitVec.ofNat 12 (beAt l 6 2),
    srcPart := BitVec.ofNat 10 (beAt l 8 2), dstPart := BitVec.ofNat 10 (beAt l 10 2),
    srcQp := BitVec.ofNat 16 (beAt l 12 2), dstQp := BitVec.ofNat 16 (beAt l 14 2),
    psn := BitVec.ofNat 32 (beAt l 16 4), epoch := BitVec.ofNat 32 (beAt l 20 4),
    key := BitVec.ofNat 48 (beAt l 24 6), kgen := BitVec.ofNat 16 (beAt l 30 2), win := BitVec.ofNat 8 (beAt l 32 1),
    status := BitVec.ofNat 8 (beAt l 33 1), len := BitVec.ofNat 16 (beAt l 34 2), addr := word (beAt l 36 8),
    aux := BitVec.ofNat 32 (beAt l 44 4), opnd0 := word (beAt l 48 8), opnd1 := word (beAt l 56 8),
    frame := if beAt l 34 2 = 8768 then some (frameOf body) else none,
    bytes := if beAt l 34 2 = 8768 then [] else body }

/-- The opcodes of R523, with the collective and mirror packets of 12. -/
def opDefined (op : Nat) : Bool :=
  [0x01, 0x02, 0x03, 0x04, 0x05, 0x06, 0x07, 0x10, 0x11, 0x12, 0x31, 0x34, 0x38, 0x39, 0x3B].contains op

/-- The ones' complement sum of 16-bit network words. -/
def sum16 (l : List Byte) : Nat :=
  let s := ((chunk 2 (l.length / 2 + 1) l).map (fun p => beNat (p ++ List.replicate (2 - p.length) 0))).sum
  if s = 0 then 0 else (s - 1) % 65535 + 1
/-- The Internet checksum of a byte string. -/
def csum16 (l : List Byte) : Nat := 65535 - sum16 l

/-- The UDP checksum with its pseudo-header; zero is sent as 0xFFFF. -/
def udpCsum (ips udp : List Byte) : Nat :=
  let c := csum16 (ips ++ natBe 4 udp.length ++ natBe 4 17 ++ udp)
  if c = 0 then 0xFFFF else c

/-- R483: a link-local address, fe80::/64 with the modified EUI-64 of a MAC address. -/
def linkLocal (mac : Nat) : Nat :=
  0xfe80 <<< 112 ||| ((mac >>> 24) ^^^ 0x020000) <<< 40 ||| 0xfffe <<< 24 ||| mac % 2 ^ 24

/-- A UDP datagram: source port, destination port, payload; the checksum is filled by the caller's addresses. -/
def udpBytes (ips : List Byte) (sport dport : Nat) (body : List Byte) : List Byte :=
  let h := natBe 2 sport ++ natBe 2 dport ++ natBe 2 (8 + body.length)
  h ++ natBe 2 (udpCsum ips (h ++ natBe 2 0 ++ body)) ++ body

/-- An IPv6 packet with DSCP 8q (R492); the flow label is given. -/
def ipv6Bytes (src dst q hops flow sport dport : Nat) (body : List Byte) : List Byte :=
  let ips := natBe 16 src ++ natBe 16 dst
  let u := udpBytes ips sport dport body
  natBe 4 (6 <<< 28 ||| q <<< 25 ||| flow % 2 ^ 20) ++ natBe 2 u.length ++ natBe 1 17 ++ natBe 1 hops ++ ips ++ u

/-- An IPv4 packet with DF set (R519); the identification and the time to live are given. -/
def ipv4Bytes (src dst q ttl ident sport dport : Nat) (body : List Byte) : List Byte :=
  let ips := natBe 4 src ++ natBe 4 dst
  let u := udpBytes ips sport dport body
  let h1 := natBe 1 0x45 ++ natBe 1 (q <<< 5) ++ natBe 2 (20 + u.length) ++ natBe 2 ident ++ natBe 2 0x4000 ++ natBe 1 ttl ++ natBe 1 17
  h1 ++ natBe 2 (csum16 (h1 ++ ips)) ++ ips ++ u

/-- An Ethernet frame without FCS; the tag of R491 where `vid` is given. -/
def ethBytes (dst src : Nat) (vid : Option Nat) (q etype : Nat) (body : List Byte) : List Byte :=
  natBe 6 dst ++ natBe 6 src ++ (match vid with
    | some v => natBe 2 0x8100 ++ natBe 2 (q <<< 13 ||| v)
    | none => []) ++ natBe 2 etype ++ body

/-- One byte of the CRC-32 of IEEE 802.3, reflected (R512). -/
def crc32Byte (c : BitVec 32) (x : Byte) : BitVec 32 :=
  (List.range 8).foldl (fun c _ => if c.getLsbD 0 then (c >>> 1) ^^^ 0xEDB88320 else c >>> 1) (c ^^^ x.zeroExtend 32)
/-- The CRC-32 of a byte string. -/
def crc32 (l : List Byte) : BitVec 32 := l.foldl crc32Byte 0xFFFFFFFF ^^^ 0xFFFFFFFF

/-! ### Reading a frame -/

/-- What the MAC finds in a frame (R484, R486): the number of tags, the VID and PCP of the first, the EtherType and the
body behind the tags. -/
structure EthView where
  dst : Nat
  src : Nat
  tags : Nat
  vid : Nat
  pcp : Nat
  etype : Nat
  body : List Byte
deriving DecidableEq, Repr

def ethView (l : List Byte) : EthView :=
  let t0 := decide (beAt l 12 2 = 0x8100)
  let t1 := t0 && decide (beAt l 16 2 = 0x8100)
  let n := b2n t0 + b2n t1
  ⟨beAt l 0 6, beAt l 6 6, n, beAt l 14 2 % 4096, beAt l 14 2 / 8192, beAt l (12 + 4 * n) 2, l.drop (14 + 4 * n)⟩

/-- The UDP datagram of an IP packet; `noSum`: over IPv4, sent without a UDP checksum. -/
structure UdpView where
  v4 : Bool
  src : Nat
  dst : Nat
  badSum : Bool
  noSum : Bool
  sport : Nat
  dport : Nat
  body : List Byte
deriving DecidableEq, Repr

/-- R484 rows 6 and 7, R520: the UDP datagram in an IP packet, and whether a checksum is wrong.  An IPv4 header that fails its
own checksum counts whatever it carries. -/
def udpView (e : EthView) : Option UdpView :=
  let l := e.body
  if e.etype = 0x86DD ∧ beAt l 6 1 = 17 then
    let u := (l.drop 40).take (beAt l 4 2)
    let ips := (l.drop 8).take 32
    some ⟨false, beAt l 8 16, beAt l 24 16, decide (beAt u 6 2 = 0) || decide (sum16 (ips ++ natBe 4 u.length ++ natBe 4 17 ++ u) ≠ 65535),
      false, beAt u 0 2, beAt u 2 2, u.drop 8⟩
  else if e.etype = 0x0800 then
    let hl := 4 * (beAt l 0 1 % 16)
    let badH := decide (sum16 (l.take hl) ≠ 65535)
    if beAt l 9 1 = 17 ∨ badH then
      let u := (l.take (beAt l 2 2)).drop hl
      let ips := (l.drop 12).take 8
      some ⟨true, beAt l 12 4, beAt l 16 4,
        badH || (decide (beAt u 6 2 ≠ 0) && decide (sum16 (ips ++ natBe 4 u.length ++ natBe 4 17 ++ u) ≠ 65535)), decide (beAt u 6 2 = 0),
        beAt u 0 2, beAt u 2 2, u.drop 8⟩
    else none
  else none

/-- R486: the priority of a received frame. -/
def rxPrio (e : EthView) : Nat :=
  if 0 < e.tags then e.pcp
  else if e.etype = 0x0800 then beAt e.body 1 1 / 32
  else if e.etype = 0x86DD then beAt e.body 0 2 / 512 % 8
  else 0

end Sys2Proof.Machine
end

