-- ==== Sys2Proof/Machine/Ports.lean ====
section
/-! DEFINITION. Ports as the transport sees them: roles, links, transmit queues, and handing packets to lanes
(10_cragil_links_and_mac.md R461 to R466, R489 to R493; 11_one_memory_space.md R525, R537). -/
namespace Sys2Proof.Machine

def Blk.port (b : Blk) (n : Nat) : Port := sget {} b.link.ports n
def Blk.setPort (b : Blk) (n : Nat) (p : Port) : Blk := { b with link := { b.link with ports := sset {} b.link.ports n p } }
def modPort (n : Nat) (f : Port → Port) : Act Unit := modify (fun b => b.setPort n (f (b.port n)))

/-- The role of a port (R465, R466): codes it does not have count as off. -/
def Blk.role (b : Blk) (n : Nat) : Nat :=
  let r := b.fld (Reg.fabLaneCfg n) 15 12
  if n = 48 then (if r = 0xB then r else 0) else if r ≤ 0xA then r else 0
/-- The state code of a port (R475). -/
def Blk.laneSt (b : Blk) (n : Nat) : Nat := b.fld (Reg.fabLaneSts n) 63 60
/-- The group of a lane, and its lowest lane (R461). -/
def groupOf (n : Nat) : Nat := 2 * (n / 8) + n % 2
def groupLow (n : Nat) : Nat := 8 * (n / 8) + n % 2
/-- Does the lane belong to a four-lane port (R462, R464)? -/
def Blk.grouped (b : Blk) (n : Nat) : Bool := decide (n < 48) && (b.reg Reg.fabCtrl).getLsbD (28 + groupOf n)
/-- The port whose MAC governs a lane (R462). -/
def Blk.govern (b : Blk) (n : Nat) : Nat := if b.grouped n then groupLow n else n
/-- The compute die of a lane (R23). -/
def laneDie (n : Nat) : Nat := n % 2
/-- The ports of a link that can carry traffic: UP lanes of a role, a four-lane port counting once (R465, R537). -/
def Blk.upLanes (b : Blk) (role : Nat) : List Nat :=
  (List.range 48).filter (fun n => decide (b.role n = role) && decide (b.laneSt n = 5) && decide (b.govern n = n))

/-- R482: the MAC address of a port. -/
def Blk.macOf (b : Blk) (n : Nat) : Nat := bits (b.reg Reg.fabMacBase) 47 6 * 64 + n
/-- Is the priority paused by the peer (R495)? -/
def Blk.paused (b : Blk) (n q : Nat) : Bool := (b.reg (Reg.macFcSts n)).getLsbD q
/-- Is VLAN tagging on, and with which VID (R491)? -/
def Blk.vidOf (b : Blk) (n : Nat) : Option Nat :=
  if bit (b.reg (Reg.macCtrl n)) 60 then some (b.fld (Reg.macCtrl n) 59 48) else none
/-- R492: the queue of a class; class 7 is treated as class 6. -/
def Blk.classQueue (b : Blk) (c : Nat) : Nat :=
  let c := if c = 7 then 6 else c
  b.fld Reg.fabTcmap (4 * c + 2) (4 * c)

/-- Add to a MAC counter (R515's table). -/
def macCount (n i k : Nat) : Act Unit := countFld (Reg.macCount n i) 63 0 k
/-- Add to a counter of the transport (R573's table). -/
def xptCount (d i : Nat) : Act Unit := countFld (Reg.xptCount d i) 63 0 1

/-- This package's identifier, if VALID (R60). -/
def Blk.pkgNo (b : Blk) : Option Nat := if bit (b.reg Reg.pkgNumber) 31 then some (b.fld Reg.pkgNumber 11 0) else none

/-- R525: the role of the link for a package. -/
def Blk.route (b : Blk) (pkg : Nat) : Option Nat :=
  let e := b.fld (Reg.xptRoute (pkg / 8)) (8 * (pkg % 8) + 7) (8 * (pkg % 8))
  if e.testBit 7 then some (e % 16) else none

/-- Is a packet one of the mirror traffic (R594, R595, R597)? -/
def Blk.isMirror (b : Blk) (p : Packet) : Bool :=
  decide (b.pkgNo = some p.srcPkg.toNat) && (decide (p.op = 0x38 ∨ p.op = 0x39) ||
    (bit (b.reg Reg.colMirror) 63 && decide (p.srcQp.toNat = b.fld Reg.colMirror 15 0)))

/-- R525, R597: the role of the link that a packet leaves on. -/
def Blk.outRole (b : Blk) (p : Packet) : Option Nat :=
  if b.isMirror p && (b.upLanes 9).isEmpty then some (b.fld Reg.colMirror 59 56) else b.route p.dstPkg.toNat

/-- The bytes of a packet as a lane sends it (R518 to R520): link-local addresses on a torus or mirror lane, the queue
pair's addresses on a switched lane.  `free` gives what the spec leaves open there (log entry 24). -/
def Blk.packetBytes (b : Blk) (n : Nat) (p : Packet) (free : Nat) : List Byte :=
  let q := b.classQueue p.cls.toNat
  let body := cragilHeader p ++ pktPayload p
  let sport := 0xC000 + (p.srcQp.toNat * 64 + p.psn.toNat) % 16384
  let dport := b.fld Reg.xptCtrl 63 48
  let f := (Config.freeWord free).toNat
  let src := b.macOf n
  if b.role n = 0xA then
    let qp := (sget none b.xpt.qps p.srcQp.toNat).getD {}
    if bit (b.reg Reg.xptCtrl) 35 then
      ethBytes qp.mac src (b.vidOf n) q 0x0800 (ipv4Bytes (b.fld Reg.xptIp4 31 0) (qp.ip % 2 ^ 32) q (f >>> 16 % 256) (f % 65536) sport dport body)
    else
      ethBytes qp.mac src (b.vidOf n) q 0x86DD
        (ipv6Bytes ((b.reg Reg.xptIp6Hi).toNat <<< 64 ||| (b.reg Reg.xptIp6Lo).toNat) qp.ip q (f >>> 24 % 256) f sport dport body)
  else
    let dst := match (b.port n).peer with
      | some (_, mac) => mac
      | none => 0
    ethBytes dst src (b.vidOf n) q 0x86DD (ipv6Bytes (linkLocal src) (linkLocal dst) q 64 f sport dport body)

/-- The bytes queued on a port in a packet's class (R537). -/
def Port.classBytes (x : Port) (c : BitVec 3) : Nat :=
  (x.txq.map (fun f => match f.kind with
    | .pkt p _ => if p.cls = c then f.bytes.length else 0
    | _ => 0)).sum

/-- Frames in one transmit queue (R489). -/
def Port.inQueue (x : Port) (q : Nat) : List TxFrame := x.txq.filter (fun f => decide (f.q = q))

/-- R489, R493: can the port take a frame of queue `q` now? -/
def Blk.canQueue (b : Blk) (n q : Nat) : Bool := decide (((b.port n).inQueue q).length < 64) && !b.paused n q

/-- R537: the lane a packet takes among those given; ties are open (log entry 13). -/
def Blk.pickLane (b : Blk) (ls : List Nat) (c : BitVec 3) : Option Nat :=
  let m := (ls.map (fun n => (b.port n).classBytes c)).foldl min (2 ^ 64)
  let best := ls.filter (fun n => decide ((b.port n).classBytes c = m))
  best[Config.tie b.free % best.length]?

/-- What becomes of a packet given to the lanes. -/
inductive Handed where
  | sent
  | held
  | noRoute
deriving DecidableEq, Repr

/-- R525, R537, R556: hand one packet to a lane of its link, or to this package itself. -/
def handOver (o : OutPkt) : Act Handed := do
  let b ← get
  if b.pkgNo = some o.pkt.dstPkg.toNat then
    set { b with xpt := { b.xpt with loop := b.xpt.loop ++ [o.pkt] } }
    pure .sent
  else
    match b.outRole o.pkt with
    | none => pure .noRoute
    | some r =>
      let q := b.classQueue o.pkt.cls.toNat
      match b.pickLane ((b.upLanes r).filter (fun n => b.canQueue n q)) o.pkt.cls with
      | none => pure .held
      | some n =>
        let f : TxFrame := ⟨q, b.fld (Reg.fabLaneSts n) 15 0, .pkt o.pkt o.transit, b.packetBytes n o.pkt (b.free + 1)⟩
        set ({ b with free := b.free + 2 }.setPort n { b.port n with txq := (b.port n).txq ++ [f] })
        pure .sent

/-- Offer every held packet to its link again; answers those without a route (R525). -/
def pump : Act (List Packet) := do
  let l := (← get).xpt.out
  modify (fun b => { b with xpt := { b.xpt with out := [] } })
  l.foldlM (fun acc o => do
    match ← handOver o with
    | .sent => pure acc
    | .held =>
      modify (fun b => { b with xpt := { b.xpt with out := b.xpt.out ++ [o] } })
      pure acc
    | .noRoute => pure (acc ++ [o.pkt])) []

/-- Give a packet to the transport's output. -/
def outPkt (p : Packet) (transit : Option Nat := none) : Act Unit :=
  modify (fun b => { b with xpt := { b.xpt with out := b.xpt.out ++ [⟨p, transit⟩] } })

/-- Report a discarded frame as not sent: the transport sends the same packet again (R479, R480). -/
def notSent (f : TxFrame) : Act Unit :=
  match f.kind with
  | .pkt p t => modify (fun b => { b with xpt := { b.xpt with out := ⟨p, t⟩ :: b.xpt.out } })
  | _ => pure ()

end Sys2Proof.Machine
end

