-- ==== Sys2Proof/Machine/Xpt.lean ====
section
/-! DEFINITION. Queue pairs: descriptors, commands and packets sent, acknowledgements, resends, errors and flush
(11_one_memory_space.md R528 to R545, R563 to R568). -/
namespace Sys2Proof.Machine

/-- The slot number of a command that no member issued. -/
def noSlot : Nat := 80

/-- R122: the address of a context descriptor. -/
def Blk.ctxAddr (b : Blk) (n : Nat) : Nat := b.fld (Reg.coreCtxBase 0) 47 24 * 2 ^ 24 + 256 * n
/-- An open queue pair. -/
def Blk.qp (b : Blk) (n : Nat) : Option QpSt := sget none b.xpt.qps n
def Blk.setQp (b : Blk) (n : Nat) (q : Option QpSt) : Blk := { b with xpt := { b.xpt with qps := sset none b.xpt.qps n q } }
def modQp (n : Nat) (f : QpSt → QpSt) : Act Unit := modify (fun b => match b.qp n with
  | some q => b.setQp n (some (f q))
  | none => b)

/-- PSN arithmetic (R536). -/
def psnAdd (a n : Nat) : Nat := (a + n) % 2 ^ 32

/-- R528: the words of a queue-pair descriptor that the package writes (R532, R567, R785). -/
def saveQp (n st : Nat) (q : QpSt) : Act Unit := do
  let a := (← get).ctxAddr n
  let e := q.err.getD (0, 0, 0)
  tableWrite 0 a (word (2 <<< 62 ||| st <<< 58 ||| q.part <<< 48 ||| q.die <<< 40)) n
  tableWrite 0 (a + 0x38) (word (q.spsn <<< 32 ||| q.una)) n
  tableWrite 0 (a + 0x40) (word (q.epsn <<< 32 ||| e.1)) n
  if q.err.isSome then
    tableWrite 0 (a + 0x48) (word e.2.1) n
    tableWrite 0 (a + 0x50) (word e.2.2) n

/-- R528: the queue pair that a descriptor's words describe. -/
def qpOf (w : List Word) : QpSt :=
  let g := nth w (0 : Word)
  { part := bits (g 0) 57 48, die := bits (g 0) 40 40, peerPkg := bits (g 1) 59 48, peerPart := bits (g 1) 41 32,
    peerQp := bits (g 1) 15 0, key := bits (g 2) 63 16, kgen := bits (g 2) 15 0, epoch := bits (g 3) 63 32, win := bits (g 3) 7 0,
    ip := (g 4).toNat <<< 64 ||| (g 5).toNat, mac := bits (g 6) 47 0, spsn := bits (g 7) 63 32, una := bits (g 7) 63 32,
    epsn := bits (g 8) 63 32 }

/-! ### The context cache (R531 to R534) -/

def Blk.cacheOf (b : Blk) (d : Nat) : List Nat := nth b.xpt.cache [] d
def Blk.setCache (b : Blk) (d : Nat) (l : List Nat) : Blk := { b with xpt := { b.xpt with cache := setNth b.xpt.cache d l } }
def Blk.cached (b : Blk) (n d : Nat) : Bool := (b.cacheOf d).contains n
/-- Use of a cached context (R532). -/
def touch (n d : Nat) : Act Unit := modify (fun b => if b.cached n d then b.setCache d ((b.cacheOf d).filter (fun x => decide (x ≠ n)) ++ [n]) else b)
/-- Start the fetch of a context (R533, R534). -/
def startFetch (n : Nat) : Act Unit := modify (fun b =>
  if b.xpt.fetching.contains n then b else { b with xpt := { b.xpt with fetching := b.xpt.fetching ++ [n] } })
/-- R532: no command queued, no packet unacknowledged, none in the reorder pool or the context-miss buffer. -/
def Blk.qpIdle (b : Blk) (n : Nat) : Bool :=
  (match b.qp n with
  | some q => q.cmds.isEmpty && q.queue.isEmpty && q.sent.isEmpty && q.waiting.isEmpty
  | none => true) && b.xpt.pool.all (fun x => decide (x.1 ≠ n)) && b.xpt.miss.all (fun x => decide (x.1 ≠ n))
/-- R123, R127: stream contexts pinned in a die's cache. -/
def Blk.pinnedCtxs (b : Blk) (d : Nat) : Nat :=
  ((b.slots.filter (fun ks => ks.2.bound && decide (keyDie ks.1 = d))).map (·.2.ctx)).eraseDups.length
/-- CONTEXT_EVICT (R532): make room for one more context on a die; answers whether there is room. -/
def makeRoom (d : Nat) : Act Bool := do
  let b ← get
  if b.pinnedCtxs d + (b.cacheOf d).length < 4096 then pure true
  else
    match (b.cacheOf d).find? (fun n => b.qpIdle n) with
    | none => pure false
    | some n =>
      match b.qp n with
      | some q => saveQp n (if q.err.isSome then 3 else 1) q
      | none => pure ()
      modify (fun b => b.setCache d ((b.cacheOf d).filter (fun x => decide (x ≠ n))))
      pure true

/-! ### Completion -/

/-- A finished command leaves its queue pair: its completion, or the collective engine's note of it (R583, R588). -/
def leaveCmd (c : RemCmd) : Act Unit := do
  match c.kind with
  | .contrib coll pos => modify (fun b => { b with col := { b.col with
      results := b.col.results ++ [ColRes.mk coll pos c.refused c.moved c.status] } })
  | .aper j size => modify (fun b =>
      let w := b.reg (Reg.xptAperSts j)
      let w := if c.status ≠ 0 ∧ !bit w 63 then setBit (setBits w 55 48 c.status) 63 true else w
      let w := if size = 0 then setBits w 31 0 (bits w 31 0 - 1) else w
      let b := b.setReg (Reg.xptAperSts j) w
      if size ≠ 0 ∧ c.status ≠ 0 then { b with host := { b.host with accessFault := true, resp := [] } } else b)
  | _ => completeCmd c.comp c.die c.status c.moved

/-- Commands complete in issue order (R565). -/
def retireGo : Nat → Nat → Act Unit
  | 0, _ => pure ()
  | fuel + 1, n => do
    match (← get).qp n with
    | none => pure ()
    | some q =>
      match q.cmds with
      | [] => pure ()
      | c :: r =>
        if c.left = 0 ∧ c.want = 0 then
          modQp n (fun q => { q with cmds := r })
          leaveCmd c
          retireGo fuel n

def retire (n : Nat) : Act Unit := do
  match (← get).qp n with
  | none => pure ()
  | some q => retireGo q.cmds.length n

/-- Change a command of a queue pair. -/
def modCmd (n id : Nat) (f : RemCmd → RemCmd) : Act Unit :=
  modQp n (fun q => { q with cmds := q.cmds.map (fun c => if c.comp.id = id then f c else c) })

/-- The first status other than 0x00 stands. -/
def RemCmd.fail (c : RemCmd) (st : Nat) : RemCmd := if c.status = 0 then { c with status := st } else c

/-! ### Errors and flush -/

/-- Frames and packets of a queue pair that have not left are discarded (R567). -/
def Blk.dropFrames (b : Blk) (n : Nat) : Blk :=
  let mine (p : Packet) : Bool := decide (p.srcQp.toNat = n) && decide (b.pkgNo = some p.srcPkg.toNat)
  let ports := b.link.ports.map (fun kp => (kp.1, { kp.2 with txq := kp.2.txq.filter (fun f => match f.kind with
    | .pkt p _ => !mine p
    | _ => true) }))
  { b with link := { b.link with ports := ports.filter (fun kp => decide (kp.2 ≠ {})) },
           xpt := { b.xpt with out := b.xpt.out.filter (fun o => !mine o.pkt), loop := b.xpt.loop.filter (fun p => !mine p),
                               pool := b.xpt.pool.filter (fun x => decide (x.1 ≠ n)), miss := b.xpt.miss.filter (fun x => decide (x.1 ≠ n)) } }

/-- R567: every command of the queue pair completes: the one that sent `psn` with `st`, the others with 0x01 and neither
flag nor signal. -/
def flushCmds (n st : Nat) (psn : Option Nat) : Act Unit := do
  match (← get).qp n with
  | none => pure ()
  | some q =>
    let owner := psn.bind (fun p => ((q.sent ++ q.waiting).find? (fun s => decide (s.pkt.psn.toNat = p))).map (·.cmd))
    modQp n (fun q => { q with cmds := [], queue := [], sent := [], waiting := [], rnr := none, unacked := 0 })
    q.cmds.forM (fun c =>
      if owner = some c.comp.id then leaveCmd { c with status := st }
      else leaveCmd { c with status := 1, comp := { c.comp with flag := none, sig := none } })

/-- QP_ERROR (R567, R568). -/
def qpError (n st psn : Nat) : Act Unit := do
  let b ← get
  match b.qp n with
  | none => pure ()
  | some q =>
    if q.err.isSome then pure ()
    else
      set ((b.dropFrames n).setQp n (some { q with err := some (st, psn, b.now) }))
      flushCmds n st (some psn)
      match (← get).qp n with
      | some q => saveQp n 3 q
      | none => pure ()

/-- R572: is it a posted store of a host core through the aperture? -/
def RemCmd.posted (c : RemCmd) : Bool := match c.kind with
  | .aper _ size => decide (size = 0)
  | _ => false

/-! ### Sending -/

/-- The EPOCH of a packet: its queue pair's; a loss notice carries 0, which is not checked (R552; log entry 36). -/
def QpSt.epochOf (q : QpSt) (op : BitVec 8) : BitVec 32 := if op = 0x34 then 0 else BitVec.ofNat 32 q.epoch

/-- R522: the header fields that a queue pair gives every packet it sends. -/
def QpSt.stamp (q : QpSt) (me n : Nat) (p : Packet) : Packet :=
  { p with srcPkg := BitVec.ofNat 12 me, dstPkg := BitVec.ofNat 12 q.peerPkg, srcPart := BitVec.ofNat 10 q.part,
           dstPart := BitVec.ofNat 10 q.peerPart, srcQp := BitVec.ofNat 16 n, dstQp := BitVec.ofNat 16 q.peerQp,
           epoch := q.epochOf p.op, key := BitVec.ofNat 48 q.key, kgen := BitVec.ofNat 16 q.kgen,
           win := BitVec.ofNat 8 q.win, ttl := 64 }

/-- Is it a request whose response carries data (R523)? -/
def wantsResponse (p : Packet) : Bool := decide (p.op = 0x03 ∨ p.op = 0x05)

/-- R525: the commands of packets that have no route complete with status 0x08; for a posted store the queue pair enters the
error state too (R572). -/
def unroutable (ps : List Packet) : Act Unit :=
  ps.forM (fun p => do
    match (← get).qp p.srcQp.toNat with
    | none => pure ()
    | some q =>
      match q.sent.find? (fun s => decide (s.pkt.psn = p.psn)) with
      | none => pure ()
      | some s =>
        if q.cmds.any (fun c => decide (c.comp.id = s.cmd) && c.posted) then qpError p.srcQp.toNat 8 p.psn.toNat
        else if s.pkt.op = p.op then
          modQp p.srcQp.toNat (fun q => { q with sent := q.sent.filter (fun t => decide (t.pkt.psn ≠ p.psn)) })
          modCmd p.srcQp.toNat s.cmd (fun c => { c.fail 8 with left := c.left - 1, want := 0 })
          retire p.srcQp.toNat)

/-- Offer held packets to the lanes. -/
def kick : Act Unit := do unroutable (← pump)

/-- R542: packets take PSNs while fewer than 256, and fewer than 8 atomics, are unacknowledged and no RNR holds the queue
pair (R544). -/
def advanceGo : Nat → Nat → Act Unit
  | 0, _ => pure ()
  | fuel + 1, n => do
    match (← get).qp n with
    | none => pure ()
    | some q =>
      match q.queue with
      | [] => pure ()
      | s :: r =>
        if q.rnr.isSome || decide (256 ≤ q.sent.length) ||
            (decide (s.pkt.op = 0x05) && decide (8 ≤ (q.sent.filter (fun t => decide (t.pkt.op = 0x05))).length)) then pure ()
        else
          let p := { s.pkt with psn := BitVec.ofNat 32 q.spsn }
          modQp n (fun q => { q with queue := r, sent := q.sent ++ [{ s with pkt := p }], spsn := psnAdd q.spsn 1 })
          modCmd n s.cmd (fun c => { c with sent := true })
          outPkt p
          advanceGo fuel n

def advance (n : Nat) : Act Unit := do
  match (← get).qp n with
  | none => pure ()
  | some q => advanceGo q.queue.length n
  kick

/-- R536, R565: a command enters its queue pair with its packets.  Without a route it completes with 0x08 (R525),
and a posted store puts the queue pair in the error state (R572; log entry 104). -/
def postCmd (n : Nat) (c : RemCmd) (ps : List (Packet × Option Nat)) : Act Unit := do
  let b ← get
  match b.qp n, b.pkgNo with
  | some q, some me =>
    if q.err.isSome then leaveCmd { c.fail 1 with left := 0, want := 0 }
    else if q.peerPkg ≠ me ∧ (b.route q.peerPkg).isNone ∧ c.posted then
      leaveCmd { c.fail 8 with left := 0, want := 0 }
      qpError n 8 q.spsn
    else if q.peerPkg ≠ me ∧ (b.route q.peerPkg).isNone then
      modQp n (fun q => { q with cmds := q.cmds ++ [{ c.fail 8 with left := 0, want := 0 }] })
    else
      let ss := ps.map (fun p => SentPkt.mk (q.stamp me n p.1) c.comp.id p.2 false)
      modQp n (fun q => { q with cmds := q.cmds ++ [{ c with left := ps.length }], queue := q.queue ++ ss })
    if b.cached n q.die then touch n q.die
    else if ← makeRoom q.die then modify (fun b => b.setCache q.die (b.cacheOf q.die ++ [n]))
    advance n
    retire n
  | _, _ => leaveCmd { c.fail 1 with left := 0, want := 0 }

/-- R542: the payload of a WRITE or TILE_ADD is read again when it is resent. -/
def reread (s : SentPkt) (d : Nat) : Act Packet := do
  match s.src with
  | none => pure s.pkt
  | some a =>
    let (a', r) := (← get).resolve a
    if r = .ddr && (← get).linkDown d then pure s.pkt
    else
      match s.pkt.frame with
      | some _ =>
        let (f, st) ← readFrameAt a' r
        let bad := decide (st ≠ 0)
        pure { s.pkt with frame := some { f with hdr := { f.hdr with poison := f.hdr.poison || bad } }, poison := bad }
      | none =>
        let (bs, st) ← readLinesAt a' s.pkt.bytes.length r
        pure { s.pkt with bytes := bs, poison := decide (st ≠ 0) }

/-- Resend a packet with the same PSN (R542), unless an RNR holds it (R544). -/
def resend (n : Nat) (s : SentPkt) : Act Unit := do
  match (← get).qp n with
  | none => pure ()
  | some q =>
    if q.rnr.any (fun r => decide (0 ≤ diff32 s.pkt.psn.toNat r)) then pure ()
    else
      let p ← reread s q.die
      xptCount q.die 5
      outPkt { p with retx := true, epoch := q.epochOf p.op }

/-! ### Acknowledgements -/

/-- What an acknowledged packet adds to the frames or bytes moved (R332, R563). -/
def RemKind.unit (k : RemKind) (p : Packet) : Nat := match k with
  | .write => if p.frame.isSome then 1 else p.bytes.length
  | .rtadd => 1
  | _ => 0

/-- R542: the packets that a selective acknowledgement shows to be missing. -/
def dupMissing (sent : List SentPkt) (thresh : Nat) : List SentPkt :=
  sent.filter (fun s => !s.sacked && decide (thresh ≤ (sent.filter (fun t => t.sacked && decide (diff32 s.pkt.psn.toNat t.pkt.psn.toNat < 0))).length))

/-- Packets up to `upto` are acknowledged: their commands advance, requests that want data wait for their response. -/
def ackedTo (n upto : Nat) : Act Unit := do
  match (← get).qp n with
  | none => pure ()
  | some q =>
    let done := q.sent.filter (fun s => decide (diff32 s.pkt.psn.toNat upto ≤ 0))
    if done.isEmpty then pure ()
    else
      let want (s : SentPkt) : Bool := wantsResponse s.pkt && q.cmds.any (fun c => decide (c.comp.id = s.cmd) && decide (c.want ≠ 0))
      modQp n (fun q => { q with
        sent := q.sent.filter (fun s => decide (0 < diff32 s.pkt.psn.toNat upto)),
        waiting := q.waiting ++ done.filter want, una := psnAdd upto 1, retry := 0 })
      done.forM (fun s => modCmd n s.cmd (fun c => { c with left := c.left - 1, moved := c.moved + c.kind.unit s.pkt }))

/-- The effect of an ACK (R541, R542). -/
def ackIn (n upto : Nat) (sack : Word) : Act Unit := do
  ackedTo n upto
  modQp n (fun q => { q with sent := q.sent.map (fun s =>
    let i := diff32 s.pkt.psn.toNat (psnAdd upto 1)
    if 0 ≤ i ∧ i < 64 ∧ bit sack i.toNat then { s with sacked := true } else s) })
  let b ← get
  let t := b.fld Reg.xptCtrl 31 24
  match b.qp n with
  | some q => (dupMissing q.sent (if t = 0 then 1 else t)).forM (resend n)
  | none => pure ()
  retire n
  advance n

/-- R130, R173: commands of a stream not yet started complete with status 0x01. -/
def flushQueued (k : Nat) (ctx : BitVec 16) : Act Unit := do
  (← get).xpt.qps.forM (fun nq => do
    match nq.2 with
    | none => pure ()
    | some q =>
      let gone := (q.cmds.filter (fun c => decide (c.comp.slot = k ∧ c.comp.ctx = ctx) && !c.sent && (match c.kind with
        | .contrib _ _ => false
        | .engine => false
        | _ => true))).map (fun c => c.comp.id)
      modQp nq.1 (fun q => { q with
        queue := q.queue.filter (fun s => !gone.contains s.cmd),
        cmds := q.cmds.map (fun c => if gone.contains c.comp.id then { c with status := 1, left := 0, want := 0, comp := c.comp.flushed } else c) })
      retire nq.1)

/-! ### Answers -/

/-- A response to a packet (R523): class 0 for ACK, NAK and RNR (R492). -/
def backPkt (p : Packet) (op : BitVec 8) (cls : BitVec 3) : Packet :=
  { op := op, cls := cls, srcPkg := p.dstPkg, dstPkg := p.srcPkg, srcPart := p.dstPart, dstPart := p.srcPart, srcQp := p.dstQp,
    dstQp := p.srcQp, psn := p.psn }

/-- Answer a request with a NAK (R549). -/
def nak (p : Packet) (d st : Nat) : Act Unit := do
  xptCount d 7
  if st = 4 then xptCount d 8
  outPkt { backPkt p 0x11 0 with status := BitVec.ofNat 8 st }
  kick

/-- Answer receiver-not-ready with the default back-off (R535, R552). -/
def rnr (p : Packet) (d : Nat) : Act Unit := do
  xptCount d 1
  let h := (← get).fld Reg.xptCtrl 15 0
  outPkt { backPkt p 0x12 0 with aux := BitVec.ofNat 32 h }
  kick

/-- Send the acknowledgement of a queue pair (R541). -/
def sendAck (n : Nat) : Act Unit := do
  let b ← get
  match b.qp n, b.pkgNo with
  | some q, some me =>
    let stored (i : Nat) : Bool := b.xpt.pool.any (fun x => decide (x.1 = n ∧ x.2.psn.toNat = psnAdd q.epsn i))
    let sack := (List.range 64).foldl (fun w i => if stored i then w ||| 2 ^ i else w) 0
    modQp n (fun q => { q with unacked := 0 })
    outPkt { q.stamp me n {} with op := 0x10, cls := 0, psn := BitVec.ofNat 32 (psnAdd q.epsn (2 ^ 32 - 1)), opnd0 := word sack }
    kick
  | _, _ => pure ()

end Sys2Proof.Machine
end

