-- ==== Sys2Proof/Machine/Place.lean ====
section
/-! DEFINITION. Objects, residency and quotas: the placement commands and the copies they start
(06_tiles_tiers_placement.md R292 to R313, R336, R337). -/
namespace Sys2Proof.Machine

/-- An object descriptor (R294): its identifier, address, first word, and fields. -/
structure Obj where
  id : BitVec 32
  addr : Nat
  w0 : Word
  valid : Bool
  st : Nat
  gen : Nat
  owner : Nat
  shared : Bool
  wb : Bool
  die : Nat
  uplace : Nat
  frames : Nat
  slow : Nat
  fast : Nat
  target : Nat
  version : Nat
  cmap : Nat
  waiters : Nat
  claims : Nat
  charged : Bool
  wbp : Bool
  wbl : Bool
deriving DecidableEq, Repr

/-- R292: the address of a descriptor. -/
def Blk.objAddr (b : Blk) (id : BitVec 32) : Nat := b.fld Reg.memPlcBase 47 26 * 2 ^ 26 + 64 * (id.toNat % 2 ^ 20)

/-- The descriptor that eight words hold (R294). -/
def objOf (id : BitVec 32) (addr : Nat) (ws : List Word) : Obj :=
  let g := nth ws (0 : Word)
  { id := id, addr := addr, w0 := g 0, valid := bit (g 0) 63, st := bits (g 0) 62 60, gen := bits (g 0) 59 48,
    owner := bits (g 0) 47 38, shared := bit (g 0) 37, wb := bit (g 0) 36, die := bits (g 0) 35 35, uplace := bits (g 0) 34 33,
    frames := bits (g 0) 31 0, slow := bits (g 1) 47 13 * 8192, fast := bits (g 2) 47 13 * 8192, target := bits (g 3) 63 32,
    version := bits (g 3) 31 0, cmap := bits (g 4) 47 7 * 128, waiters := bits (g 5) 63 48, claims := bits (g 5) 47 37,
    charged := bit (g 5) 36, wbp := bit (g 5) 35, wbl := bit (g 5) 34 }

/-- Read a descriptor (R788). -/
def readObj (id : BitVec 32) : Act Obj := do
  let a := (← get).objAddr id
  pure (objOf id a (← readWords a 8))

/-- R293: a valid descriptor of this generation. -/
def getObj (id : BitVec 32) : Act Obj := do
  need (bit ((← get).reg Reg.memPlcBase) 0) 0x02
  let o ← readObj id
  need (o.valid && decide (o.gen = bits (word id.toNat) 31 20)) 0x02
  pure o

/-- Write the package's fields of a descriptor (R294, R785). -/
def putObj (o : Obj) : Act Unit := do
  tableWrite 1 o.addr (setBits (setBits o.w0 62 60 o.st) 63 63 (b2n o.valid)) o.id.toNat
  tableWrite 1 (o.addr + 0x18) (word (o.target <<< 32 ||| o.version)) o.id.toNat
  tableWrite 1 (o.addr + 0x28) (word (o.waiters <<< 48 ||| o.claims <<< 37 ||| b2n o.charged <<< 36 ||| b2n o.wbp <<< 35 ||| b2n o.wbl <<< 34)) o.id.toNat

/-- Write a descriptor whose STATE changes: TIME too (R294). -/
def putState (o : Obj) (st : Nat) : Act Unit := do
  putObj { o with st := st }
  let t := (← get).now
  tableWrite 1 (o.addr + 0x30) (word t) o.id.toNat

/-! ### Quotas (R305, R306, R336) -/

/-- The address of a partition's quota words of a tier: LIMIT, then USED. -/
def Blk.quotaAddr (b : Blk) (p : Nat) (ddr : Bool) : Nat := b.fld Reg.memQuotaBase 47 15 * 2 ^ 15 + 32 * p + 16 * b2n ddr

/-- Charge `n` bytes to a partition's quota of a tier: 0x09 when it does not fit. -/
def chargeQuota (p : Nat) (ddr : Bool) (n : Nat) : Act Unit := do
  let b ← get
  if bit (b.reg Reg.memQuotaBase) 0 then
    let a := b.quotaAddr p ddr
    let lim ← readWord a
    let used ← readWord (a + 8)
    need (used.toNat + n ≤ lim.toNat) 0x09
    tableWrite 2 (a + 8) (word (used.toNat + n)) p

/-- Credit `n` bytes: 0x0A beyond USED. -/
def creditQuota (p : Nat) (ddr : Bool) (n : Nat) : Act Unit := do
  let b ← get
  if bit (b.reg Reg.memQuotaBase) 0 then
    let a := b.quotaAddr p ddr
    let used ← readWord (a + 8)
    need (n ≤ used.toNat) 0x0A
    tableWrite 2 (a + 8) (word (used.toNat - n)) p

/-- Take the owner's HBM charge if it is not held (R299, R302). -/
def takeCharge (o : Obj) : Act Obj := do
  if o.charged then pure o
  else
    chargeQuota o.owner false (o.frames * 8192)
    pure { o with charged := true }

/-- R299, R300: release the charge of a Falling object when nothing holds it. -/
def dropCharge (o : Obj) : Act Obj := do
  if o.claims = 0 && !o.wbp && decide (o.waiters = 0) && o.charged then
    quietly (creditQuota o.owner false (o.frames * 8192))
    pure { o with charged := false }
  else pure o

/-! ### Claims (R295, R298) -/

/-- Does a partition hold a claim? -/
def hasClaim (o : Obj) (p : Nat) : Act Bool := do
  if o.shared then
    let bs ← readPa ⟨none⟩ (o.cmap + p / 8) 1
    pure ((bs.headD 0).getLsbD (p % 8))
  else pure (decide (o.claims ≠ 0))

/-- Set or clear a claim that is not, or is, held. -/
def setClaim (o : Obj) (p : Nat) (on : Bool) : Act Obj := do
  if o.shared then
    let bs ← readPa ⟨none⟩ (o.cmap + p / 8) 1
    let x := (bs.headD 0).toNat
    let y := if on then x ||| 2 ^ (p % 8) else x &&& (255 - 2 ^ (p % 8))
    writePa ⟨none⟩ (o.cmap + p / 8) [BitVec.ofNat 8 y]
  pure { o with claims := if on then o.claims + 1 else o.claims - 1 }

/-- R298: may the partition claim the object? -/
def mayClaim (o : Obj) (p : Nat) : Bool := o.shared || decide (p = o.owner)

/-- R618: is a partition enabled?  Partition 0 always is (R615). -/
def Blk.partOn (b : Blk) (p : Nat) : Bool := decide (p = 0) || decide (b.fld (Reg.prtPart p) 62 60 = 1)

/-! ### Fences (R308) -/

/-- Is a fence for `ver` satisfied? -/
def fenceSat (o : Obj) (ver : Nat) : Bool := decide (o.st = 2) && decide (0 ≤ diff32 o.version ver)

/-- The members whose RUN waits for an object look at it again (R412). -/
def wakeRuns (id : BitVec 32) : Act Unit :=
  modify (fun b => { b with slots := b.slots.map (fun ks => match ks.2.wait with
    | .runFast o => if o = id then (ks.1, { ks.2 with wait := .none }) else ks
    | _ => ks) })

/-- FENCE_WAKE (R308): the members whose fence the object satisfies go on; the object with the waiters that remain. -/
def wakeFences (o : Obj) : Act Obj := do
  let ks := ((← get).slots.filter (fun ks => match ks.2.wait with
    | .fence obj v _ => decide (obj = o.id) && fenceSat o v
    | _ => false)).map (·.1)
  ks.forM (fun k => modSlot k (fun s => { s with wait := .none }))
  wakeRuns o.id
  pure { o with waiters := o.waiters - ks.length }

/-! ### PROMOTE and the others -/

/-- The copy or writeback under way for an object. -/
def Blk.residOf (b : Blk) (id : BitVec 32) (up : Bool) : Option ResCopy := b.resid.find? (fun r => decide (r.obj = id) && (r.up == up))

/-- Someone waits for the Rising copy of an object; the copy starts if none is under way. -/
def pendOn (id : BitVec 32) (who : PromWho) : Act Unit :=
  modify (fun b =>
    if (b.residOf id true).isSome then
      { b with resid := b.resid.map (fun r => if r.obj = id ∧ r.up then { r with pend := r.pend ++ [who] } else r) }
    else { b with resid := b.resid ++ [⟨id, true, [who]⟩] })

/-- A partition's claim is added once. -/
def addClaim (o : Obj) (p : Nat) : Act Obj := do
  if ← hasClaim o p then pure o else setClaim o p true

/-- PROMOTE p, v (R298, R299): a status, or nothing while the copy runs. -/
def promote (id : BitVec 32) (p v : Nat) (who : PromWho) : Act (Option Nat) := do
  let b ← get
  need (b.partOn p) 0x02
  let o ← getObj id
  need (mayClaim o p) 0x02
  let up := !b.linkDown o.die
  let keep := decide (diff32 v o.version ≤ 0) || o.wb
  let fast (o : Obj) : Act (Option Nat) := do
    let o ← addClaim o p
    let was := o.st
    let o := { o with version := if o.wb && decide (0 < diff32 v o.version) then v else o.version, st := 2 }
    let o ← wakeFences o
    if was = 2 then putObj o else putState o 2
    pure (some 0)
  let rise (o : Obj) : Act (Option Nat) := do
    let o ← addClaim o p
    putState { o with target := v } 1
    pendOn id who
    pure none
  match o.st with
  | 0 =>
    need up 0x0E
    rise (← takeCharge o)
  | 1 =>
    let o ← addClaim o p
    putObj { o with target := if 0 < diff32 v o.target then v else o.target }
    pendOn id who
    pure none
  | 2 =>
    if keep then fast o
    else
      need up 0x0E
      rise o
  | _ =>
    need (keep || up) 0x0E
    let o ← takeCharge o
    if keep then fast o else rise o

/-- EVICT p (R298, R299). -/
def evict (id : BitVec 32) (p : Nat) : Act Unit := do
  let b ← get
  let o ← getObj id
  need (mayClaim o p) 0x02
  if ← hasClaim o p then
    let o ← setClaim o p false
    if o.st = 2 ∧ o.claims = 0 then
      let up := !b.linkDown o.die
      let o := { o with wbp := o.wbp || (o.wb && up), wbl := o.wbl || (o.wb && !up) }
      if o.wb && up then
        modify (fun b => if (b.residOf id false).isSome then b else { b with resid := b.resid ++ [⟨id, false, []⟩] })
      putState (← dropCharge o) 3
    else putObj o

/-- RECLAIM (R299, R301). -/
def reclaim (id : BitVec 32) : Act Unit := do
  let o ← getObj id
  need (decide (o.st = 3) && !o.charged && decide (o.waiters = 0)) 0x0A
  putState o 0

/-- CREATE (R296, R297; R294: WBL cleared). -/
def create (id : BitVec 32) : Act Unit := do
  let b ← get
  let o ← readObj id
  need (o.gen = bits (word id.toNat) 31 20) 0x02
  let n := o.frames * 8192
  need (!o.valid && decide (o.frames ≠ 0) && decide (o.slow + n ≤ b.top 2) &&
    decide (hbmBase o.die ≤ o.fast ∧ o.fast + n ≤ b.top o.die)) 0x0A
  chargeQuota o.owner true n
  putState { o with valid := true, version := 0, target := 0, waiters := 0, claims := 0, charged := false, wbp := false, wbl := false } 0

/-- DESTROY (R296, R297). -/
def destroy (id : BitVec 32) : Act Unit := do
  let o ← getObj id
  need (decide (o.st = 0) && decide (o.claims = 0) && decide (o.waiters = 0)) 0x0A
  creditQuota o.owner true (o.frames * 8192)
  putObj { o with valid := false }

/-! ### MEM_PLC_CMD -/

/-- The completion of a placement command. -/
def plcDone (st : Nat) : Act Unit := do
  setFld Reg.memPlcSts 55 48 st
  setFld Reg.memPlcSts 63 63 0

/-- Run one placement command (R293, R336, R337): ignored while BUSY; "nothing yet" keeps BUSY set. -/
def plcCommand (obj : BitVec 32) (body : Act (Option Nat)) : Act Unit := do
  if bit ((← get).reg Reg.memPlcSts) 63 then pure ()
  else
    setReg Reg.memPlcSts (setBits ((← get).reg Reg.memPlcSts) 31 0 obj.toNat)
    if !bit ((← get).reg Reg.memPlcBase) 0 then plcDone 0x0A
    else
      fun b => match body b with
        | .ok none t => (setFld Reg.memPlcSts 63 63 1) t
        | .ok (some st) t => plcDone st t
        | .error e t => plcDone e t

/-- A command that always completes at once. -/
def atOnce (a : Act Unit) : Act (Option Nat) := do
  a
  pure (some 0)

def execCreate (_src : Src) (obj : BitVec 32) (s : State) : Host.Outcome State Fault Refusal :=
  s.act (plcCommand obj (atOnce (create obj)))
def execDestroy (_src : Src) (obj : BitVec 32) (s : State) : Host.Outcome State Fault Refusal :=
  s.act (plcCommand obj (atOnce (destroy obj)))
/-- The version comes from MEM_PLC_ARG. -/
def execPromote (_src : Src) (part : BitVec 10) (obj : BitVec 32) (s : State) : Host.Outcome State Fault Refusal :=
  s.act (plcCommand obj (do promote obj part.toNat ((← get).fld Reg.memPlcArg 31 0) .reg))
def execEvict (_src : Src) (part : BitVec 10) (obj : BitVec 32) (s : State) : Host.Outcome State Fault Refusal :=
  s.act (plcCommand obj (atOnce (evict obj part.toNat)))
def execReclaim (_src : Src) (obj : BitVec 32) (s : State) : Host.Outcome State Fault Refusal :=
  s.act (plcCommand obj (atOnce (reclaim obj)))
/-- The byte count of CHARGE and CREDIT comes from MEM_PLC_ARG. -/
def execCharge (_src : Src) (part : BitVec 10) (ddr : Bool) (s : State) : Host.Outcome State Fault Refusal :=
  s.act (plcCommand 0 (atOnce (do chargeQuota part.toNat ddr ((← get).reg Reg.memPlcArg).toNat)))
def execCredit (_src : Src) (part : BitVec 10) (ddr : Bool) (s : State) : Host.Outcome State Fault Refusal :=
  s.act (plcCommand 0 (atOnce (do creditQuota part.toNat ddr ((← get).reg Reg.memPlcArg).toNat)))

/-! ### Copies -/

/-- Who waits for a PROMOTE learns its status (R299, R333, R337). -/
def promDone (st : Nat) : PromWho → Act Unit
  | .reg => plcDone st
  | .member c => completeCmd c 0 st 0
  | .run k => if st = 0 then pure () else modify (fun b => match (b.slot k).wait with
      | .runFast _ => b.raiseLast k st
      | _ => b)

/-- R303: whole frames, headers included, in ascending order. -/
def copyFrames (src dst n : Nat) : Act Unit :=
  (List.range n).forM (fun i => do
    let (a, r) := (← get).resolve (src + i * 8192)
    let (f, st) ← readFrameAt a r
    let (d, r') := (← get).resolve (dst + i * 8192)
    writeFrameAt d r' { f with hdr := { f.hdr with poison := f.hdr.poison || decide (st ≠ 0) } })

/-- RESIDENCY_COPY_COMPLETE (R299, R303, R304): not while the drain holds copies (R449, R450). -/
def residencyCopyComplete (id : BitVec 32) : Act Unit := do
  let b ← get
  match b.residOf id true with
  | none => pure ()
  | some r =>
    let o ← getObj id
    if b.hold || b.linkDown o.die || decide (o.st ≠ 1) then pure ()
    else
      copyFrames o.slow o.fast o.frames
      modify (fun b => { b with resid := b.resid.filter (fun x => !(decide (x.obj = id) && x.up)) })
      let o := { o with version := o.target }
      if o.claims = 0 then
        wakeRuns id
        putState (← dropCharge o) 3
      else
        let o ← wakeFences { o with st := 2 }
        putState o 2
      r.pend.forM (promDone 0)

def execResidencyCopyComplete (obj : BitVec 32) (s : State) : Host.Outcome State Fault Refusal := s.act (residencyCopyComplete obj)

/-- WRITEBACK_COMPLETE (R299, R303). -/
def writebackComplete (id : BitVec 32) : Act Unit := do
  let b ← get
  match b.residOf id false with
  | none => pure ()
  | some _ =>
    let o ← getObj id
    if b.hold || b.linkDown o.die then pure ()
    else
      copyFrames o.fast o.slow o.frames
      modify (fun b => { b with resid := b.resid.filter (fun x => !(decide (x.obj = id) && !x.up)) })
      let o := { o with wbp := false }
      putObj (← if o.st = 3 then dropCharge o else pure o)

def execWritebackComplete (obj : BitVec 32) (s : State) : Host.Outcome State Fault Refusal := s.act (writebackComplete obj)

/-- R299, R334: the residency of objects when the host link of their die goes down. -/
def residLinkDown (d : Nat) : Act Unit := do
  (← get).resid.forM (fun r => quietly (do
    let o ← getObj r.obj
    if o.die = d then
      if r.up then
        modify (fun b => { b with resid := b.resid.filter (fun x => !(decide (x.obj = r.obj) && x.up)) })
        if o.shared then quietly (writePa ⟨none⟩ o.cmap (List.replicate 128 0))
        let ks := ((← get).slots.filter (fun ks => match ks.2.wait with
          | .fence obj _ _ => decide (obj = r.obj)
          | _ => false)).map (·.1)
        ks.forM (fun k => modify (·.raiseLast k 0x0E))
        let o := { o with claims := 0, waiters := o.waiters - ks.length }
        putState (← dropCharge o) 0
        r.pend.forM (promDone 0x0E)
        wakeRuns r.obj
      else if o.st = 3 then
        modify (fun b => { b with resid := b.resid.filter (fun x => !(decide (x.obj = r.obj) && !x.up)) })
        putObj (← dropCharge { o with wbp := false, wbl := true })))

end Sys2Proof.Machine
end

