-- ==== Sys2Proof/Machine/Move.lean ====
section
/-! DEFINITION. The MOVE class, arrival fences and stage queues (06_tiles_tiers_placement.md R308 to R325). -/
namespace Sys2Proof.Machine

/-! ### MOVE.TILE and MOVE.GATHER -/

/-- R321, R325: a memory operand may lie in any tier or store, beside a tile register only where R229 allows. -/
def moveWhere (c : Cx) (d a : Nat) : Blk → Nat → Region → Bool :=
  if (Spec.of d).isMem && (Spec.of a).isMem then fun _ _ _ => true else fun b => b.near c

/-- Source tile `i` of a MOVE as a frame with its header (R288, R322). -/
def moveSrc (c : Cx) (sp i : Nat) (f : Fmt) (wh : Blk → Nat → Region → Bool) : Act Frame := do
  match Spec.of sp with
  | .mem n =>
    let fr ← rdFrame c ((← sreg c n).toNat + i * 8192) wh
    need (headerIs fr.hdr f) 0x0A
    pure fr
  | .reg _ =>
    need f.inReg 0x0A
    let t ← rdTile c sp i f wh
    pure ⟨c.header f t.sat t.empty, [], t.data⟩
  | _ => throw 0x0A

/-- Put a frame, header and all, at destination tile `i` (R287). -/
def movePut (c : Cx) (sp i : Nat) (f : Fmt) (fr : Frame) : Act Unit := do
  match Spec.of sp with
  | .mem n => wrFrame c ((← sreg c n).toNat + i * 8192) fr
  | _ => wrTile c sp i f ⟨fr.data, fr.side, fr.hdr.sat, fr.hdr.empty⟩

/-- MOVE.TILE (R322): a copy, or a conversion as VEC.CVT does it, which the load path counts (R82, R117; log entry 101). -/
def moveTile (w : Word) (c : Cx) : Act Unit := do
  match Fmt.ofCode (bits w 47 44), Fmt.ofCode (bits w 43 40), RM.ofCode (bits w 39 37) with
  | some f, some sf, some rm =>
    let d := bits w 34 29
    let a := bits w 28 23
    let reps := bits w 22 16 + 1
    let wh := moveWhere c d a
    let same := decide (f = sf)
    let (nr, nw) := if same then (1, 1) else runCounts sf f
    need (same || (!f.isInt4 && (!sf.isInt4 || decide (f = .bf16 ∨ f = .e4m3 ∨ f = .e5m2)))) 0x0A
    need ((f.inReg || (Spec.of d).isMem) && (sf.inReg || (Spec.of a).isMem)) 0x0A
    (List.range (reps * nw)).forM (fun i => wrTileCheck c d i wh)
    let cv : Conv := if sf.isInt4 then ⟨.rne, true, .floor⟩ else ⟨rm, bit w 36, if bit w 35 then .fit else .floor⟩
    let v : VecF := ⟨f, cv, 0, false, false, d, a, 0, 0, none⟩
    (List.range reps).forM (fun j => do
      let fs ← (List.range nr).mapM (fun i => moveSrc c a (j * nr + i) sf wh)
      if same then movePut c d j f (fs.headD {})
      else
        let rows := sideBySide sf.k (fs.map (fun x => sf.values x.data x.side))
        let sat := fs.any (·.hdr.sat)
        let empty := fs.foldl (fun e x => e ||| x.hdr.empty) 0
        (List.range nw).forM (fun i => do
          let seed := ((← get).slot c.key).seed
          let rnd := vecDraws seed (← vecTile c v (j * nw + i) (j * nr * 8192 + i * f.k * sf.bits / 8)) (64 * f.k)
          let o := f.encode cv (cutCols f.k i rows) rnd
          wrTile c d (j * nw + i) f ⟨o.data, o.side, sat, empty⟩
          census c 0 f o.cats))
  | _, _, _ => throw 0x0A

def execMoveTile (m : Member) (w : Word) (s : State) : Host.Outcome State Fault Refusal :=
  s.upd (issue m w 2 0x00 (wordOk w false (0, 0) &&
    rsvdOk w [(47, 44), (43, 40), (39, 37), (36, 36), (35, 35), (34, 29), (28, 23), (22, 16)]) (moveTile w))

/-- The 64 indices of MOVE.GATHER (R323). -/
def gatherIdx (c : Cx) (a : Nat) (wh : Blk → Nat → Region → Bool) : Act (List Int) := do
  let bs ← match Spec.of a with
    | .mem n => do rdBytes c (← sreg c n).toNat 256 wh
    | .reg _ => do pure ((← rdTile c a 0 .int32 wh).data)
    | _ => throw 0x0A
  pure ((chunk 4 64 (padTo 256 bs)).map (fun x => sext (leNat x) 32))

/-- One gathered row: its bytes, its block scales, its source's saturation flag. -/
def gatherRow (c : Cx) (f : Fmt) (base stride : Nat) (wh : Blk → Nat → Region → Bool) (i : Int) : Act (List Byte × List Byte × Bool) := do
  let n := f.k / 32
  if i < 0 then pure (List.replicate f.rowBytes 0, List.replicate n 0, false)
  else
    let fr ← rdFrame c ((base + (i.toNat / 64) * stride) % 2 ^ 64) wh
    need (headerIs fr.hdr f) 0x0A
    let r := i.toNat % 64
    pure (((padTo 8192 fr.data).drop (r * f.rowBytes)).take f.rowBytes, ((padTo 512 fr.side).drop (r * n)).take n, fr.hdr.sat)

/-- MOVE.GATHER (R323). -/
def moveGather (w : Word) (c : Cx) : Act Unit := do
  match Fmt.ofCode (bits w 47 44) with
  | none => throw 0x0A
  | some f =>
    let d := bits w 34 29
    let a := bits w 28 23
    let wh := moveWhere c d a
    need (!f.isInt4 && (f.inReg || (Spec.of d).isMem)) 0x0A
    wrTileCheck c d 0 wh
    let b ← get
    let base := (b.sreg c.key (bits w 9 5)).toNat
    let stride := (b.sreg c.key (bits w 4 0)).toNat
    let idx ← gatherIdx c a wh
    let rows ← idx.mapM (gatherRow c f base stride wh)
    let empty := (List.zip (List.range 64) idx).foldl (fun e x => if x.2 < 0 then e ||| 2 ^ x.1 else e) 0
    wrTile c d 0 f ⟨padTo 8192 (rows.map (·.1)).flatten, if f.isMx then (rows.map (·.2.1)).flatten else [], rows.any (·.2.2), word empty⟩

def execMoveGather (m : Member) (w : Word) (s : State) : Host.Outcome State Fault Refusal :=
  s.upd (issue m w 2 0x01 (wordOk w false (0, 0) && rsvdOk w [(47, 44), (34, 29), (28, 23), (9, 5), (4, 0)]) (moveGather w))

/-! ### Arrival fences -/

/-- R320, R324: the encoding of MOVE.AFN. -/
def afnOk (w : Word) : Bool := wordOk w false (0, 0) && rsvdOk w [(47, 47), (46, 46), (45, 30), (9, 5), (4, 0)]

/-- MOVE.AFN with REL = 0 (R308 to R310). -/
def moveAfn (w : Word) (c : Cx) : Act Unit := do
  let b ← get
  let id := BitVec.ofNat 32 (b.sreg c.key (bits w 9 5)).toNat
  let ver := (b.sreg c.key (bits w 4 0)).toNat % 2 ^ 32
  let o ← getObj id
  need (mayClaim o c.part) 0x02
  if !fenceSat o ver then
    putObj { o with waiters := min (o.waiters + 1) 65535 }
    setWait c (.fence id ver (bit w 47 && !o.wb))

def execMoveAfn (m : Member) (w : Word) (s : State) : Host.Outcome State Fault Refusal :=
  s.upd (fun b => if bit w 46 then b else issue m w 2 0x02 (afnOk w) (moveAfn w) b)

/-- MOVE.AFN with REL = 1 (R313, R324). -/
def moveAfnRelease (w : Word) (c : Cx) : Act Unit := do
  need (!bit w 47 && decide (bits w 45 30 = 0)) 0x0A
  let id := BitVec.ofNat 32 ((← get).sreg c.key (bits w 9 5)).toNat
  modSlot c.key (fun s => { s with redirects := s.redirects.filter (fun r => decide (r.obj ≠ id)) })

def execMoveAfnRelease (m : Member) (w : Word) (s : State) : Host.Outcome State Fault Refusal :=
  s.upd (fun b => if !bit w 46 then b else issue m w 2 0x02 (afnOk w) (moveAfnRelease w) b)

/-- A member no longer waits on a fence: WAITERS is decremented, and a charge that it held up is released (R299, R310). -/
def leaveFence (k : Nat) : Act Unit := do
  match ((← get).slot k).wait with
  | .fence id _ _ =>
    modSlot k (fun s => { s with wait := .none })
    quietly (do
      let o ← getObj id
      let o := { o with waiters := o.waiters - 1 }
      putObj (← if o.st = 3 then dropCharge o else pure o))
  | _ => pure ()

/-- AFN_DEADLINE_EXPIRY (R310 to R312): read-through with a redirect entry, or cause 0x07 when both are held. -/
def afnDeadlineExpiry (m : Member) : Act Unit := do
  let b ← get
  match b.memberKey m with
  | none => pure ()
  | some k =>
    let s := b.slot k
    match s.wait, s.st with
    | .fence id _ true, .run =>
      let o ← getObj id
      leaveFence k
      if 2 ≤ s.redirects.length then modify (·.raiseLast k 0x07)
      else modSlot k (fun s => { s with redirects := s.redirects ++ [⟨id, o.fast, o.slow, o.frames⟩] })
    | _, _ => pure ()

def execAfnDeadlineExpiry (m : Member) (s : State) : Host.Outcome State Fault Refusal := s.act (afnDeadlineExpiry m)

/-! ### Stage queues -/

def Blk.sq (b : Blk) (n : Nat) : Option SqEnd := sget none b.sqs n
def Blk.setSq (b : Blk) (n : Nat) (e : Option SqEnd) : Blk := { b with sqs := sset none b.sqs n e }
def modSq (n : Nat) (f : SqEnd → SqEnd) : Act Unit := modify (fun b => match b.sq n with
  | some e => b.setSq n (some (f e))
  | none => b)

/-- The address of an end's entry (R315); `n` is die × 64 + number. -/
def Blk.sqAddr (b : Blk) (n : Nat) : Nat := b.fld (Reg.memSqBase (n / 64)) 47 12 * 4096 + 64 * (n % 64)
/-- The six words of an end's entry. -/
def sqWords (n : Nat) : Act (List Word) := do readWords ((← get).sqAddr n) 6

/-- The fields of a receiver end. -/
def sqSeg (ws : List Word) (i : Nat) : Nat := bits (nth ws 0 1) 47 13 * 8192 + (i % max 1 (bits (nth ws 0 1) 5 0)) * 8192
def sqRing (ws : List Word) (i : Nat) : Nat := bits (nth ws 0 2) 47 13 * 8192 + (i % max 1 (bits (nth ws 0 3) 15 0)) * 8192

/-- R316, R336, R321: the open end that a stage-queue instruction names. -/
def sqUse (c : Cx) (q : Nat) (recv : Bool) : Act (Nat × SqEnd × List Word) := do
  let n := c.die * 64 + q
  let b ← get
  need (bit (b.reg (Reg.memSqBase c.die)) 0) 0x02
  match b.sq n with
  | none => throw 0x02
  | some e =>
    let ws ← sqWords n
    need ((e.recv == recv) && decide (bits (nth ws 0 0) 57 48 = c.part)) 0x02
    pure (n, e, ws)

/-- A packet of a stage queue leaves over its queue pair, class 2 (R317, R319, R492; log entry 26). -/
def sqSend (n : Nat) (ws : List Word) (p : Packet) : Act Unit := do
  let part := bits (nth ws 0 0) 57 48
  let id ← begin' noSlot 0 .remote
  let c : Comp := { id := id, slot := noSlot, ctx := 0, part := part, pc := 0, word := 0, layer := 0, oper := 0, nofault := true }
  postCmd (bits (nth ws 0 0) 47 32) { comp := c, kind := .stage, die := n / 64, left := 0 }
    [({ p with op := Config.stageOp, cls := 2, aux := BitVec.ofNat 32 (bits (nth ws 0 0) 6 0) }, none)]

/-- R317: frames leave while credits are held; members whose frames have all left go on. -/
def sqPumpGo : Nat → Nat → Act Unit
  | 0, _ => pure ()
  | fuel + 1, n => do
    match (← get).sq n with
    | none => pure ()
    | some e =>
      match e.sends with
      | [] => pure ()
      | (f, _) :: r =>
        let ws ← sqWords n
        let cr := bits (nth ws 0 4) 31 0
        if cr = 0 then pure ()
        else
          tableWrite 3 ((← get).sqAddr n + 0x20) (setBits (nth ws 0 4) 31 0 (cr - 1)) n
          modSq n (fun e => { e with sends := r })
          sqSend n ws { frame := some f, len := 8768, poison := f.hdr.poison }
          sqPumpGo fuel n

def sqWake (n : Nat) : Act Unit := modify (fun b =>
  let left := ((b.sq n).map (·.sends)).getD []
  { b with slots := b.slots.map (fun ks => match ks.2.wait with
      | .credit q => if q = n ∧ !left.any (fun x => decide (x.2 = ks.1)) then (ks.1, { ks.2 with wait := .none }) else ks
      | _ => ks) })

def sqPump (n : Nat) : Act Unit := do
  quietly (sqPumpGo ((((← get).sq n).map (·.sends)).getD []).length n)
  sqWake n

/-- The frame that MOVE.QSEND sends for source tile `i`: any format. -/
def sqSrc (c : Cx) (sp i : Nat) : Act Frame := do
  match Spec.of sp with
  | .mem n => rdFrame c ((← sreg c n).toNat + i * 8192)
  | .reg n =>
    need (n + i < 8) 0x0A
    let t := (((← get).slot c.key).t.toList[n + i]?).getD {}
    match t.fmt with
    | some f => pure ⟨c.header f t.sat t.empty, [], t.data⟩
    | none => throw 0x0A
  | _ => throw 0x0A

/-- MOVE.QSEND (R317): the member waits until its frames have left. -/
def moveQsend (w : Word) (c : Cx) : Act Unit := do
  let (n, _, _) ← sqUse c (bits w 47 42) false
  let fs ← (List.range (bits w 22 16 + 1)).mapM (fun i => sqSrc c (bits w 28 23) i)
  modSq n (fun e => { e with sends := e.sends ++ fs.map (fun f => (f, c.key)) })
  setWait c (.credit n)
  sqPump n

def execMoveQsend (m : Member) (w : Word) (s : State) : Host.Outcome State Fault Refusal :=
  s.upd (issue m w 2 0x03 (wordOk w false (0, 0) && rsvdOk w [(47, 42), (28, 23), (22, 16)]) (moveQsend w))

/-- A frame enters the segment, and SYNC is signalled (R318). -/
def sqEnter (n : Nat) (ws : List Word) (f : Frame) : Act Unit := do
  match (← get).sq n with
  | none => pure ()
  | some e =>
    let (a, r) := (← get).resolve (sqSeg ws (e.segHd + e.segN))
    writeFrameAt a r f
    modSq n (fun e => { e with segN := e.segN + 1 })
    giveSignal (bits (nth ws 0 0) 57 48) (bits (nth ws 0 3) 45 32) 1

/-- HWM_SEG and HWM_RING (R315). -/
def sqMarks (n : Nat) (ws : List Word) : Act Unit := do
  match (← get).sq n with
  | none => pure ()
  | some e =>
    let w := nth ws 0 5
    tableWrite 3 ((← get).sqAddr n + 0x28) (setBits (setBits w 63 32 (max (bits w 63 32) e.ringN)) 31 0 (max (bits w 31 0) e.segN)) n

/-- R318: ring frames move into the free slots of the segment, oldest first. -/
def sqRefillGo : Nat → Nat → List Word → Act Unit
  | 0, _, _ => pure ()
  | fuel + 1, n, ws => do
    match (← get).sq n with
    | none => pure ()
    | some e =>
      if e.ringN = 0 ∨ bits (nth ws 0 1) 5 0 ≤ e.segN then pure ()
      else
        let (a, r) := (← get).resolve (sqRing ws e.ringHd)
        let (f, st) ← readFrameAt a r
        modSq n (fun e => { e with ringHd := (e.ringHd + 1) % max 1 (bits (nth ws 0 3) 15 0), ringN := e.ringN - 1 })
        sqEnter n ws { f with hdr := { f.hdr with poison := f.hdr.poison || decide (st ≠ 0) } }
        sqRefillGo fuel n ws

/-- MOVE.QPOP (R319). -/
def moveQpop (w : Word) (c : Cx) : Act Unit := do
  let (n, e, ws) ← sqUse c (bits w 47 42) true
  let d := bits w 34 29
  let k := bits w 22 16 + 1
  need (k ≤ e.segN) 0x0A
  (List.range k).forM (fun i => wrTileCheck c d i (fun _ _ _ => true))
  (List.range k).forM (fun i => do
    let (a, r) := (← get).resolve (sqSeg ws (e.segHd + i))
    let (f, st) ← readFrameAt a r
    need (st = 0) st
    match Fmt.ofCode f.hdr.fmt.toNat with
    | some g =>
      need (g.inReg || (Spec.of d).isMem) 0x0A
      movePut c d i g f
    | none =>
      need (Spec.of d).isMem 0x0A
      movePut c d i .fp32 f)
  modSq n (fun e => { e with segHd := (e.segHd + k) % max 1 (bits (nth ws 0 1) 5 0), segN := e.segN - k, owed := e.owed + k })
  sqRefillGo 64 n ws
  sqMarks n ws

def execMoveQpop (m : Member) (w : Word) (s : State) : Host.Outcome State Fault Refusal :=
  s.upd (issue m w 2 0x04 (wordOk w false (0, 0) && rsvdOk w [(47, 42), (34, 29), (22, 16)]) (moveQpop w))

/-- A packet of a stage queue has been taken by the queue pair of its end (R538, R541). -/
def stageTaken (ws : List Word) : Act Unit := do
  let n := bits (nth ws 0 0) 47 32
  modQp n (fun q => { q with epsn := psnAdd q.epsn 1 })
  sendAck n

/-- SQ_FRAME_ARRIVAL (R318): segment, else ring; a frame that finds neither, which no credit covered, is dropped. -/
def sqFrameArrival (n : Nat) (f : Frame) : Act Unit := do
  match (← get).sq n with
  | none => pure ()
  | some e =>
    if e.recv then
      let ws ← sqWords n
      stageTaken ws
      if e.ringN = 0 ∧ e.segN < bits (nth ws 0 1) 5 0 then sqEnter n ws f
      else if e.ringN < bits (nth ws 0 3) 15 0 then
        let (a, r) := (← get).resolve (sqRing ws (e.ringHd + e.ringN))
        writeFrameAt a r f
        modSq n (fun e => { e with ringN := e.ringN + 1 })
      sqMarks n ws

def execSqFrameArrival (die : Fin 2) (q : Fin 64) (f : Frame) (s : State) : Host.Outcome State Fault Refusal :=
  s.act (sqFrameArrival (die.val * 64 + q.val) f)

/-- SQ_CREDIT_RETURN (R319): the receiver returns one credit for each freed slot. -/
def sqCreditReturn (n : Nat) : Act Unit := do
  match (← get).sq n with
  | none => pure ()
  | some e =>
    if e.recv && decide (0 < e.owed) then
      let ws ← sqWords n
      modSq n (fun e => { e with owed := 0 })
      sqSend n ws { opnd0 := word e.owed }

def execSqCreditReturn (die : Fin 2) (q : Fin 64) (s : State) : Host.Outcome State Fault Refusal :=
  s.act (sqCreditReturn (die.val * 64 + q.val))

/-- SQ_CREDIT_ARRIVAL (R317). -/
def sqCreditArrival (n k : Nat) : Act Unit := do
  match (← get).sq n with
  | none => pure ()
  | some e =>
    if !e.recv then
      let ws ← sqWords n
      stageTaken ws
      tableWrite 3 ((← get).sqAddr n + 0x20) (setBits (nth ws 0 4) 31 0 (min (bits (nth ws 0 4) 31 0 + k) (2 ^ 32 - 1))) n
      sqPump n

def execSqCreditArrival (die : Fin 2) (q : Fin 64) (n : Nat) (s : State) : Host.Outcome State Fault Refusal :=
  s.act (sqCreditArrival (die.val * 64 + q.val) n)

/-- SQOPEN (R315, R316, R786): what makes an end valid beyond its field ranges is the model's reading (log entry 27). -/
def sqOpen (n peerSlots : Nat) : Act Unit := do
  let b ← get
  let ws ← sqWords n
  let g := nth ws (0 : Word)
  let part := bits (g 0) 57 48
  need ((b.sq n).isNone && bit (b.reg (Reg.memSqBase (n / 64))) 0 &&
    (b.qp (bits (g 0) 47 32)).any (fun q => q.err.isNone && decide (q.part = part))) 0x0A
  if bit (g 0) 63 then
    let seg := bits (g 1) 5 0
    let base := bits (g 1) 47 13 * 8192
    let ring := bits (g 2) 47 13 * 8192
    let rn := bits (g 3) 15 0
    need (decide (seg ≠ 0) && (List.range seg).all (fun i => match (b.resolve (base + i * 8192)).2 with
      | .store _ _ => true
      | _ => false) && (decide (rn = 0) || (decide ((b.resolve ring).2 = (b.resolve (ring + (rn - 1) * 8192)).2) &&
        (match (b.resolve ring).2 with
        | .hbm _ => true
        | _ => false)))) 0x0A
    need (b.ownsSync part (bits (g 3) 45 32)) 0x02
    tableWrite 3 (b.sqAddr n + 0x28) 0 n
  else tableWrite 3 (b.sqAddr n + 0x20) (word (peerSlots % 2 ^ 32)) n
  modify (fun b => b.setSq n (some ⟨bit (g 0) 63, [], 0, 0, 0, 0, 0⟩))

def execSqopen (_src : Src) (qend : BitVec 7) (peerSlots : Nat) (s : State) : Host.Outcome State Fault Refusal :=
  s.act (plcCommand 0 (atOnce (sqOpen qend.toNat peerSlots)))

/-- SQCLOSE (R316): frames queued at a sender are over, frames held at a receiver are discarded. -/
def sqClose (n : Nat) : Act Unit := do
  need ((← get).sq n).isSome 0x0A
  modify (fun b => b.setSq n none)
  sqWake n

def execSqclose (_src : Src) (qend : BitVec 7) (s : State) : Host.Outcome State Fault Refusal :=
  s.act (plcCommand 0 (atOnce (sqClose qend.toNat)))

end Sys2Proof.Machine
end

