-- ==== Sys2Proof/Machine/Xfer.lean ====
section
/-! DEFINITION. Copy engines and XFER.PLACE (06_tiles_tiers_placement.md R326 to R337). -/
namespace Sys2Proof.Machine

/-! ### Issuing -/

/-- R327: the side of an address: the die's HBM and stores, or the DDR5 tier and PCIe; nothing else is a copy's. -/
def copySide (c : Cx) : Region → Option Bool
  | .hbm d => if d = c.die then some false else none
  | .store d _ => if d = c.die then some false else none
  | .cluster d _ => if d = c.die then some false else none
  | .ddr => some true
  | .pcie => some true
  | _ => none

/-- The direction of a write (R162). -/
def Region.dir : Region → Nat
  | .hbm _ => 1
  | .ddr => 2
  | .pcie => 2
  | _ => 0

/-- Resolve a copy's virtual address: 0x02 where an engine of the die has no access (R40, R48, R163). -/
def copyAddr (c : Cx) (va : Nat) (p : Perm) : Act (Nat × Region) := do
  let pa ← translate c.part va p
  let b ← get
  let (a, r) := b.resolve pa
  need ((copySide c r).isSome && b.shareAt c.bf a r && (p != .wr || decide ((b.slot c.key).redirect pa = pa))) 0x02
  pure (a, r)

/-- Check every frame that [va, va+n) touches; all of them lie on the side of the first (R327). -/
def copyCheck (c : Cx) (va n : Nat) (p : Perm) : Act (Option Region) := do
  let rs ← (piecesOf va n).mapM (fun q => do pure (← copyAddr c q.1 p).2)
  need (rs.all (fun r => decide (copySide c r = (rs.head?).bind (copySide c)))) 0x02
  pure rs.head?

/-- R332, R566, R786: the flag, signal and record that an extension word names. -/
def compOf (c : Cx) (x : Word) (flag sig nofault : Bool) (id : Nat) : Act Comp := do
  let b ← get
  let obj := bits x 63 50
  let creg := bits x 9 5
  if flag then wrCheckNow c (b.sreg c.key (bits x 14 10)).toNat 8
  if creg ≠ 0 then
    wrCheckNow c (b.sreg c.key creg).toNat 16 (fun b => b.ownLocal c)
  if sig then need (b.ownsSync c.part obj) 0x02
  pure { id := id, slot := c.key, ctx := c.ctx, part := c.part, pc := c.pc, word := c.w, layer := c.layer, oper := c.oper,
         flag := if flag then some ((b.sreg c.key (bits x 14 10)).toNat, b.sreg c.key (bits x 19 15)) else none,
         sig := if sig then some obj else none,
         crec := if creg ≠ 0 then some (b.sreg c.key creg).toNat else none, nofault := nofault }
where
  /-- Check that a range can be written later. -/
  wrCheckNow (c : Cx) (va n : Nat) (wh : Blk → Nat → Region → Bool := fun _ _ _ => true) : Act Unit :=
    (piecesOf va n).forM (fun p => do
      let pa ← translate c.part p.1 .wr
      let b ← get
      let (a, r) := b.resolve pa
      need ((r.isTier || r.isStore) && b.shareAt c.bf a r && wh b a r) 0x02)

/-- The commands that an engine holds. -/
def Blk.eng (b : Blk) (e : Nat) : List CopyCmd := sget [] b.engines e
def Blk.setEng (b : Blk) (e : Nat) (l : List CopyCmd) : Blk := { b with engines := sset [] b.engines e l }

/-- The bytes a command moves (R327). -/
def CopyCmd.bytes (x : CopyCmd) : Nat := match x.kind with
  | .copy fr _ len => if fr then len * 8768 else len
  | .copyi pl => pl.length
  | .gesso _ n => n * 8768

/-- R327: the engine a command goes to; among equals AUTO's choice is open (log entry 13). -/
def pickEngine (d : Nat) (out : Bool) (w : Word) : Act Nat := do
  let base := d * 8 + 4 * b2n out
  if bit w 45 then
    let b ← get
    let load (e : Nat) : Nat := ((b.eng e).map (·.bytes)).sum
    let es := (List.range 4).map (fun i => base + i)
    let m := (es.map load).foldl min (load base)
    let best := es.filter (fun e => decide (load e = m))
    let n ← fresh
    pure (nth best base (Config.tie n % best.length))
  else pure (base + bits w 47 46)

/-- R331: queue a command on its engine; a full engine keeps the member waiting. -/
def queueCopy (c : Cx) (w : Word) (r : Option Region) (mk : Nat → Act Comp) (kind : CopyKind) (dst : Nat) : Act Unit := do
  let out := (r.bind (copySide c)).getD false
  let dir := (r.map Region.dir).getD 0
  let comp ← mk (← get).nextId
  let e ← pickEngine c.die out w
  if 64 ≤ ((← get).eng e).length then throw notYet
  let _ ← begin' c.key c.ctx (.copy (decide (dir = 2)))
  modify (fun b => b.setEng e (b.eng e ++ [⟨comp, kind, dst, dir⟩]))

/-- R326: EXT fields of a copy command. -/
def copyExtOk (x : Word) : Bool := rsvdExt x [(63, 50), (19, 15), (14, 10), (9, 5)]

/-- XFER.COPY (R327, R328, R331). -/
def xferCopy (w x : Word) (c : Cx) : Act Unit := do
  let b ← get
  let n := (b.sreg c.key (bits w 14 10)).toNat
  let src := (b.sreg c.key (bits w 9 5)).toNat
  let dst := (b.sreg c.key (bits w 4 0)).toNat
  let fr := bit w 44
  let al := if fr then 8192 else 64
  need (decide (src % al = 0) && decide (dst % al = 0) && (fr || decide (n % 64 = 0))) 0x0A
  let len := if fr then n * 8192 else n
  let rd ← copyCheck c dst len .wr
  let rs ← copyCheck c src len .rd
  need (decide (len = 0) || decide (rd.bind (copySide c) ≠ rs.bind (copySide c))) 0x0A
  need (!fr || (decide (rd ≠ some .pcie) && decide (rs ≠ some .pcie))) 0x0A
  queueCopy c w rd (compOf c x (bit w 43) (bit w 41) (bit w 42)) (.copy fr src n) dst

def execXferCopy (m : Member) (w x : Word) (s : State) : Host.Outcome State Fault Refusal :=
  s.upd (issue m w 6 0x00 (wordOk w true (0, 0) && copyExtOk x &&
    rsvdOk w [(47, 46), (45, 45), (44, 44), (43, 43), (42, 42), (41, 41), (14, 10), (9, 5), (4, 0)]) (xferCopy w x))

/-- XFER.COPYI (R329). -/
def xferCopyi (w : Word) (pl : List Word) (c : Cx) : Act Unit := do
  let dst := ((← get).sreg c.key (bits w 4 0)).toNat
  let n := bits w 12 5 + 1
  need (decide (n ≤ 8 * bits w 52 48) && decide (dst % 8 = 0)) 0x0A
  let rd ← copyCheck c dst n .wr
  queueCopy c w rd (compOf c 0 false false (bit w 42)) (.copyi ((padTo (8 * bits w 52 48) (wordsBytes pl)).take n)) dst

def execXferCopyi (m : Member) (w : Word) (pl : List Word) (s : State) : Host.Outcome State Fault Refusal :=
  s.upd (issue m w 6 0x01 (wordOk w false (1, 24) && rsvdOk w [(47, 46), (45, 45), (42, 42), (12, 5), (4, 0)]) (xferCopyi w pl))

/-- XFER.GESSO (R330). -/
def xferGesso (w x : Word) (c : Cx) : Act Unit := do
  let b ← get
  let n := (b.sreg c.key (bits w 14 10)).toNat
  let dst := (b.sreg c.key (bits w 4 0)).toNat
  need ((Fmt.ofCode (bits w 44 41)).isSome && decide (dst % 8192 = 0)) 0x0A
  let rd ← copyCheck c dst (n * 8192) .wr
  need (rd.all (fun r => r.isTier)) 0x0A
  queueCopy c w rd (compOf c x false (bit w 39) (bit w 40)) (.gesso (bits w 44 41) n) dst

def execXferGesso (m : Member) (w x : Word) (s : State) : Host.Outcome State Fault Refusal :=
  s.upd (issue m w 6 0x02 (wordOk w true (0, 0) && copyExtOk x &&
    rsvdOk w [(47, 46), (45, 45), (44, 41), (40, 40), (39, 39), (14, 10), (4, 0)]) (xferGesso w x))

/-- XFER.PLACE (R296, R333, R337): the member goes on at once; a status other than 0x00 is reported under R333. -/
def xferPlace (w : Word) (act : BitVec 32 → Word → PromWho → Act (Option Nat)) (c : Cx) : Act Unit := do
  let b ← get
  let id ← begin' c.key c.ctx .place
  let comp : Comp := { id := id, slot := c.key, ctx := c.ctx, part := c.part, pc := c.pc, word := w, layer := c.layer,
                       oper := c.oper, nofault := bit w 44 }
  let obj := BitVec.ofNat 32 (b.sreg c.key (bits w 9 5)).toNat
  let v := b.sreg c.key (bits w 4 0)
  let go : Act (Option Nat) := if bit (b.reg Reg.memPlcBase) 0 then act obj v (.member comp) else throw 0x0A
  fun b => match go b with
    | .ok none t => .ok () t
    | .ok (some st) t => completeCmd comp c.die st 0 t
    | .error e t => completeCmd comp c.die e 0 t

/-- R326: the encoding of XFER.PLACE. -/
def placeOk (w : Word) : Bool := wordOk w false (0, 0) && rsvdOk w [(47, 45), (44, 44), (9, 5), (4, 0)]

def execXferPlacePromote (m : Member) (w : Word) (s : State) : Host.Outcome State Fault Refusal :=
  s.upd (fun b => if bits w 47 45 = 1 then b else
    issue m w 6 0x03 (placeOk w && decide (bits w 47 45 = 0)) (fun c => xferPlace w (fun obj v who => promote obj c.part (v.toNat % 2 ^ 32) who) c) b)

def execXferPlaceEvict (m : Member) (w : Word) (s : State) : Host.Outcome State Fault Refusal :=
  s.upd (fun b => if bits w 47 45 ≠ 1 then b else
    issue m w 6 0x03 (placeOk w) (fun c => xferPlace w (fun obj _ _ => atOnce (evict obj c.part)) c) b)

/-! ### Completion -/

/-- Does a command cross to host memory or PCIe (R334, R450)? -/
def CopyCmd.crosses (x : CopyCmd) : Bool := match x.kind with
  | .copy _ _ _ => true
  | _ => decide (x.dir = 2)

/-- R332: does an earlier data write of the member in the same direction stand out? -/
def Blk.earlierWrites (b : Blk) (x : CopyCmd) : Bool :=
  b.engines.any (fun e => e.2.any (fun y => decide (y.comp.slot = x.comp.slot ∧ y.dir = x.dir ∧ y.comp.id < x.comp.id))) ||
  (decide (x.dir = 0) && b.outst.any (fun o => decide (o.slot = x.comp.slot ∧ o.kind = .push ∧ o.id < x.comp.id)))

/-- R438: the PCIe port of an address. -/
def Blk.portOf (b : Blk) (a : Nat) : Nat := Config.pciePort a % 2 ^ min (b.fld Reg.hcePcieCfg 7 6) 2

/-- A pinned destination, or one that cannot be reached, gives 0x02; a side whose host link is down 0x0E; a PCIe link that
is down 0x08 (R334, R407, R440). -/
def copyTarget (d part va : Nat) (p : Perm) (n : Nat := 8192) : Act (Nat × Region) := do
  let pa ← translate part va p
  let b ← get
  let (a, r) := b.resolve pa
  need (r.isTier || r.isStore || decide (r = .pcie)) 0x02
  need (!(decide (r = .ddr ∨ r = .pcie) && b.linkDown d)) 0x0E
  need (!(decide (r = .pcie) && b.host.pcieDown.contains (b.portOf a))) 0x08
  need (p != .wr || !b.pinned a n) 0x02
  pure (a, r)

/-- Bytes that a PCIe device answers: the spec does not give them (log entry 28). -/
def freeBytes (n : Nat) : Act (List Byte) := do
  let i := (← get).free
  modify (fun b => { b with free := b.free + (n + 7) / 8 })
  pure (((List.range ((n + 7) / 8)).flatMap (fun j => natLe 8 (Config.freeWord (i + j)).toNat)).take n)

/-- One frame of an FR = 1 copy (R287, R328, R371). -/
def copyFrame (d part src dst : Nat) : Act Unit := do
  let (a, r) ← copyTarget d part src .rd
  let (a', r') ← copyTarget d part dst .wr
  let (f, st) ← readFrameAt a r
  need (decide (st = 0 ∨ st = 5)) st
  writeFrameAt a' r' { f with hdr := { f.hdr with poison := decide (st = 5) } }

/-- The bytes of one piece of an FR = 0 copy (R328, R371). -/
def copyBytes (d part src dst n : Nat) : Act Unit := do
  let (a, r) ← copyTarget d part src .rd
  let (a', r') ← copyTarget d part dst .wr n
  let (bs, st) ← if r = .pcie then do pure ((← freeBytes n), 0) else readLinesAt a n r
  if st = 0 ∧ r' ≠ .pcie then
    writeLinesAt a' r' bs
    if r' = .ddr then modify (·.devTouch d a' n)
  else if st ≠ 0 then
    if r' ≠ .pcie then poisonFrame a'
    throw st

/-- The pieces of a byte copy: no piece leaves a frame of the source or of the destination. -/
def copyPieces : Nat → Nat → Nat → Nat → List (Nat × Nat × Nat)
  | 0, _, _, _ => []
  | fuel + 1, s, d, n =>
    if n = 0 then []
    else
      let k := min n (min (8192 - s % 8192) (8192 - d % 8192))
      (s, d, k) :: copyPieces fuel (s + k) (d + k) (n - k)

/-- Run steps in order until one fails; answers what was moved and the status.  A poisoned piece to PCIe is sent and the
command goes on (R371). -/
def runSteps (steps : List (Nat × Act Unit)) (goOn : Bool) : Act (Nat × Nat) :=
  steps.foldlM (fun ms x => do
    if ms.2 = 0 ∨ (goOn ∧ ms.2 = 5) then
      let st ← Act.status x.2
      pure (if st = 0 ∨ (goOn ∧ st = 5) then ms.1 + x.1 else ms.1, if st = 0 then ms.2 else st)
    else pure ms) (0, 0)

/-- The data movement of a copy command (R328 to R330, R371). -/
def copyMove (d : Nat) (x : CopyCmd) : Act (Nat × Nat) := do
  let part := x.comp.part
  match x.kind with
  | .copy true src n => runSteps ((List.range n).map (fun i => (1, copyFrame d part (src + i * 8192) (x.dst + i * 8192)))) false
  | .copy false src n =>
    let ps := copyPieces (2 * (n / 8192) + 4) src x.dst n
    let pcie ← fun b => match copyTarget d part x.dst .wr 0 b with
      | .ok v t => .ok (decide (v.2 = .pcie)) t
      | .error _ _ => .ok false b
    runSteps (ps.map (fun p => (p.2.2, copyBytes d part p.1 p.2.1 p.2.2))) pcie
  | .copyi bs =>
    let ps := piecesOf x.dst bs.length
    runSteps (ps.map (fun p => (p.2, do
      let (a, r) ← copyTarget d part p.1 .wr p.2
      if r ≠ .pcie then
        writeLinesAt a r ((bs.drop (p.1 - x.dst)).take p.2)
        if r = .ddr then modify (·.devTouch d a p.2)))) false
  | .gesso fmt n =>
    runSteps ((List.range n).map (fun i => (1, do
      let (a, r) ← copyTarget d part (x.dst + i * 8192) .wr
      let k := ((Fmt.ofCode fmt).map Fmt.klog2).getD 0
      writeFrameAt a r { hdr := { fmt := BitVec.ofNat 4 fmt, klog2 := BitVec.ofNat 4 k, part := BitVec.ofNat 10 part } }))) false

/-- The bytes that a copy command moves. -/
def CopyCmd.size (x : CopyCmd) : Nat := match x.kind with
  | .copy fr _ n => if fr then 8192 * n else n
  | .copyi bs => bs.length
  | .gesso _ n => 8192 * n

/-- The ranges of a partition's addresses that a copy command reads and writes. -/
def CopyCmd.ranges (x : CopyCmd) : List (Nat × Perm) := match x.kind with
  | .copy _ src _ => [(src, .rd), (x.dst, .wr)]
  | _ => [(x.dst, .wr)]

/-- R643, step 2: does a copy reach the local store of a core that moves? -/
def CopyCmd.held (x : CopyCmd) (b : Blk) : Bool :=
  b.cores.any (fun kc => kc.2.moving.isSome) && x.ranges.any (fun e => (piecesOf e.1 x.size).any (fun q =>
    match translate x.comp.part q.1 e.2 b with
    | .ok pa _ => b.heldStore (b.resolve pa).2
    | .error _ _ => false))

/-- COPY_COMPLETE (R331 to R334): the oldest command of an engine.  It does not complete while the drain holds it (R450) or,
with FLAG or SIG, before the member's earlier writes in its direction (R332). -/
def copyComplete (e : Nat) : Act Unit := do
  let b ← get
  match b.eng e with
  | [] => pure ()
  | x :: r =>
    if (b.hold && x.crosses) || x.held b || ((x.comp.flag.isSome || x.comp.sig.isSome) && b.earlierWrites x) then pure ()
    else
      set (b.setEng e r)
      let (moved, st) ← if x.crosses && b.linkDown (e / 8) then pure (0, 0x0E) else copyMove (e / 8) x
      completeCmd x.comp (e / 8) st moved

def execCopyComplete (die : Fin 2) (eng : Fin 8) (s : State) : Host.Outcome State Fault Refusal :=
  s.act (copyComplete (die.val * 8 + eng.val))

/-- R334: every copy in flight that crosses a host link completes with 0x0E when the link goes down. -/
def copyLinkDown (d : Nat) : Act Unit :=
  (List.range 8).forM (fun i => do
    let l := (← get).eng (d * 8 + i)
    modify (fun b => b.setEng (d * 8 + i) (l.filter (fun x => !x.crosses)))
    (l.filter (·.crosses)).forM (fun x => completeCmd x.comp d 0x0E 0))

/-- R130, R173: commands of a stream's slot that have not started complete with 0x01; the head of an engine has started. -/
def copyFlush (k : Nat) (ctx : BitVec 16) : Act Unit := do
  (← get).engines.forM (fun e => do
    let mine (x : CopyCmd) : Bool := decide (x.comp.slot = k ∧ x.comp.ctx = ctx)
    let l := e.2
    modify (fun b => b.setEng e.1 (l.take 1 ++ (l.drop 1).filter (fun x => !mine x)))
    ((l.drop 1).filter mine).forM (fun x => completeCmd x.comp.flushed (e.1 / 8) 0x01 0))

end Sys2Proof.Machine
end

