-- ==== Sys2Proof/Machine/Coll.lean ====
section
/-! DEFINITION. The collective engine: job records, reduce and gather steps, fixed order, permutes, and the mirror
(12_collectives_and_pairs.md R574 to R598). -/
namespace Sys2Proof.Machine

/-- Run an action and answer its result, if it has one. -/
def attempt {α : Type} (a : Act α) : Act (Except Nat α) := fun b =>
  match a b with
  | .ok v t => .ok (.ok v) t
  | .error e t => .ok (.error e) t

/-- Give the first and last packets of a message their flags (R522). -/
def marks (ps : List Packet) : List Packet :=
  List.zipWith (fun i p => { p with first := decide (i = 0), last := decide (i + 1 = ps.length) }) (List.range ps.length) ps

def colCount (d i n : Nat) : Act Unit := countFld (Reg.colCount d i) 63 0 n

/-! ### Job records (R574, R575) -/

/-- A job record: word 0, and for each axis its word and its member entries. -/
structure JobRec where
  j : Nat
  base : Nat
  w0 : Word
  ax : List Word
  mem : List (List Word)
deriving DecidableEq, Repr

def readJob (j : Nat) : Act JobRec := do
  let base := (← get).fld (Reg.colJob j) 47 11 * 2048
  let ws ← readWords base 160
  pure ⟨j, base, nth ws 0 0, (List.range 4).map (fun x => nth ws 0 (32 * (x + 1))),
    (List.range 4).map (fun x => (ws.drop (32 * (x + 1) + 1)).take 16)⟩

def JobRec.epoch (r : JobRec) : Nat := bits r.w0 63 32
def JobRec.quar (r : JobRec) : Bool := bit r.w0 31
def JobRec.daxis (r : JobRec) : Nat := bits r.w0 29 28
def JobRec.part (r : JobRec) : Nat := bits r.w0 25 16
def JobRec.axis (r : JobRec) (x : Nat) : Word := nth r.ax 0 x
def JobRec.len (r : JobRec) (x : Nat) : Nat := bits (r.axis x) 63 60 + 1
def JobRec.pos (r : JobRec) (x : Nat) : Nat := bits (r.axis x) 59 56
def JobRec.ring (r : JobRec) (x : Nat) : Bool := bit (r.axis x) 55
def JobRec.broken (r : JobRec) (x : Nat) : Bool := bit (r.axis x) 54
def JobRec.member (r : JobRec) (x p : Nat) : Word := nth (nth r.mem [] x) 0 p
def JobRec.mstate (r : JobRec) (x p : Nat) : Nat := bits (r.member x p) 63 62
def JobRec.alt (r : JobRec) (x p : Nat) : Option Nat := if bit (r.member x p) 57 then some (bits (r.member x p) 61 58) else none
def JobRec.pkg (r : JobRec) (x p : Nat) : Nat := bits (r.member x p) 55 44
def JobRec.qp (r : JobRec) (x p : Nat) : Nat := bits (r.member x p) 15 0
/-- The positions of a line whose MSTATE passes a test, as a mask. -/
def JobRec.mask (r : JobRec) (x : Nat) (f : Nat → Bool) : Nat :=
  ((List.range (r.len x)).filter (fun p => f (r.mstate x p))).foldl (fun m p => m ||| 2 ^ p) 0
/-- The queue pairs of the other members of a line. -/
def JobRec.lineQps (r : JobRec) (x : Nat) : List Nat :=
  (List.range (r.len x)).map (fun p => if p = r.pos x then 65536 else r.qp x p)
/-- Every queue pair of the record. -/
def JobRec.allQps (r : JobRec) : List Nat :=
  (((List.range 4).flatMap (fun x => r.lineQps x)).filter (fun n => decide (n < 65536))).eraseDups

/-- The enabled jobs whose record can be read. -/
def jobsOn : Act (List JobRec) :=
  (List.range 16).foldlM (fun acc j => do
    if bit ((← get).reg (Reg.colJob j)) 63 then
      match ← attempt (readJob j) with
      | .ok r => pure (acc ++ [r])
      | .error _ => pure acc
    else pure acc) []

/-- The job, axis and position that a queue pair is named for. -/
def jobOfQp (n : Nat) : Act (Option (JobRec × Nat × Nat)) := do
  let b ← get
  if (List.range 16).all (fun j => !bit (b.reg (Reg.colJob j)) 63) then pure none
  else
    let js ← jobsOn
    pure ((js.flatMap (fun r => (List.range 4).flatMap (fun x => ((List.range (r.len x)).filter
      (fun p => decide (p ≠ r.pos x ∧ r.qp x p = n))).map (fun p => (r, x, p))))).head?)

/-! ### Collectives -/

def Blk.coll (b : Blk) (id : Nat) : Option Coll := b.col.colls.find? (fun c => decide (c.comp.id = id))
def modColl (id : Nat) (f : Coll → Coll) : Act Unit :=
  modify (fun b => { b with col := { b.col with colls := b.col.colls.map (fun c => if c.comp.id = id then f c else c) } })
def Blk.perm (b : Blk) (id : Nat) : Option PermCmd := b.col.perms.find? (fun c => decide (c.comp.id = id))
def modPerm (id : Nat) (f : PermCmd → PermCmd) : Act Unit :=
  modify (fun b => { b with col := { b.col with perms := b.col.perms.map (fun c => if c.comp.id = id then f c else c) } })

/-- R578: the landing tag. -/
def Coll.tag (c : Coll) : Nat := c.ltag * 256 + c.step % 256
/-- Does a contribution tile cover two frames of the shard (R265)? -/
def Coll.two (c : Coll) : Bool := decide (c.sfmt ≠ c.fmt)
/-- Tiles of one contribution: with two frames a tile, half of F (log entry 30). -/
def Coll.tiles (c : Coll) : Nat := if c.two then c.frames / 2 else c.frames
/-- R577: the length of a landing record, R. -/
def Coll.recLen (c : Coll) : Nat := (16 + 8 * c.frames + 63) / 64 * 64
/-- R577: the address of frame `i` of shard `k` from a base. -/
def Coll.at (c : Coll) (base k i : Nat) : Nat := base + (k * c.frames + i) * 8192
/-- Where tile `i` of a contribution to shard `k` goes. -/
def Coll.dest (c : Coll) (k i : Nat) : Nat := c.at c.dst k (if c.two then 2 * i else i)
def Coll.qp (c : Coll) (p : Nat) : Nat := nth c.qps 65536 p
/-- The landing of a collective. -/
def Blk.collLand (b : Blk) (c : Coll) (e : Nat) : Landing := (b.slot c.comp.slot).land e

/-- A member's virtual address as the collective engine of its die reaches it. -/
def collPa (part die va : Nat) (p : Perm) : Act (Nat × Region) := do
  let pa ← translate part va p
  engineAddr ⟨some die⟩ pa

/-- A frame that the engine sends: bad data travels poisoned (R371, R564). -/
def collFrame (part die va : Nat) : Act (Frame × Nat) := do
  let (a, r) ← collPa part die va .rd
  let (f, st) ← readFrameAt a r
  pure ({ f with hdr := { f.hdr with poison := f.hdr.poison || decide (st ≠ 0) } }, a)

/-- A command number for the engine's own packets. -/
def engineComp (part : Nat) : Act Comp := do
  let b ← get
  set { b with nextId := b.nextId + 1 }
  pure { id := b.nextId, slot := noSlot, ctx := 0, part := part, pc := 0, word := 0, layer := 0, oper := 0, nofault := true }

/-- The engine sends packets on a queue pair as one command. -/
def enginePost (n die part : Nat) (kind : RemKind) (ps : List (Packet × Option Nat)) : Act Unit := do
  let c ← engineComp part
  let ms := marks (ps.map (·.1))
  postCmd n { comp := c, kind := kind, die := die, left := 0, moved := ps.length } (List.zipWith (fun m p => (m, p.2)) ms ps)

/-- The global address of an offset in the partition at the other end of a queue pair (R51). -/
def Blk.peerAddr (b : Blk) (n va : Nat) : Word :=
  match b.qp n with
  | some q => word (q.peerPkg <<< 52 ||| q.peerPart <<< 42 ||| va % 2 ^ 42)
  | none => 0

/-! ### Ends -/

/-- A collective or permute is over: its signal, its outstanding operation, and the stream's fault (R333, R583, R593). -/
def endMember (c : Comp) (st obj : Nat) (val : Word) (quiet : Bool) : Act Unit := do
  if !quiet && (decide (st = 0) || c.nofault) then giveSignal c.part obj val c.ctx.toNat
  finish c.id
  if !quiet && decide (st ≠ 0) && !c.nofault then
    modify (fun b =>
      if (b.slot c.slot).bound && decide ((b.slot c.slot).ctx = c.ctx) then
        b.raiseWith c.slot ⟨st, c.pc, bits c.word 63 60, bits c.word 59 54, c.layer, c.oper, b.now⟩
      else b)

/-- Write a word of a descriptor in a local store. -/
def descWord (a : Nat) (v : Nat) : Act Unit := quietly (writePa ⟨none⟩ a (natLe 8 v))

/-- The indices admitted to the member's own landing, over all its tiles (R576). -/
def Blk.admitted (b : Blk) (c : Coll) : Nat :=
  ((c.lands.filter (fun l => decide (l.1 = c.pos))).flatMap (fun l => (b.collLand c l.2).bits)).foldl (fun a m => a ||| m) 0

/-- The addresses whose frames or records the gather step of a collective awaits, with the queue pair that brings them:
every other position's shard, a lost position's from its alternate (R584). -/
def Coll.needs (c : Coll) : List (Nat × Nat) :=
  ((List.range c.len).filter (fun k => decide (k ≠ c.pos))).flatMap (fun k =>
    let from' := if c.lost.testBit k then ((c.alts.find? (fun a => decide (a.1 = k))).map (·.2)) else some k
    match from' with
    | none => []
    | some f =>
      if f = c.pos then []
      else ((List.range c.frames).map (fun i => (c.qp f, c.at c.dst k i))) ++
        (if c.kind = 3 then (piecesOf (c.recva + k * c.recLen) c.recLen).map (fun x => (c.qp f, x.1)) else []))

/-- Frames that have arrived are used up by the collective or permute that awaited them. -/
def useArrived (l : List (Nat × Nat)) : Act Unit :=
  modify (fun b => { b with col := { b.col with arrived := l.foldl (fun a x => a.erase x) b.col.arrived } })

/-- The member, job, axis and series of a collective. -/
def Blk.series (b : Blk) (c : Coll) : Nat × Nat × Nat × Nat :=
  ((c.die * 16 + (b.slot c.comp.slot).log) * 2 + c.comp.slot % 2, c.job, c.axis, c.series)

/-- A collective ends with a status (R583, R605, R607, R611): landings still armed are closed (log entry 31). -/
def endColl (id st : Nat) (quiet : Bool := false) : Act Unit := do
  match (← get).coll id with
  | none => pure ()
  | some c =>
    c.lands.forM (fun l => closeLanding c.comp.slot l.2)
    let b ← get
    let adm := b.admitted c
    let late := if st = 0 ∧ c.pol = 2 ∧ c.kind ≠ 2 then (bitsOf c.s 16).foldl (fun m p => if adm.testBit p then m else m ||| 2 ^ p) 0 else 0
    let done := (if c.kind = 2 then 0 else c.stage) + b2n (decide (st = 0))
    descWord (c.desc + 0x38) ((if st = 0 then c.step else c.lastStep) <<< 32 ||| late <<< 16 ||| c.held)
    descWord (c.desc + 0x40) (st <<< 56 ||| done <<< 52 ||| (adm ||| adm >>> 16) % 65536)
    descWord (c.desc + 0x48) b.now
    colCount c.die 0 1
    useArrived c.needs
    let key := b.series c
    modify (fun b => { b with col := {
      b.col with
      colls := b.col.colls.filter (fun x => decide (x.comp.id ≠ id)),
      holds := b.col.holds.filter (fun x => decide (x ≠ key)) ++ (if c.held ≠ 0 then [key] else []) } })
    endMember c.comp st c.obj c.val quiet

/-- A permute ends with a status (R593). -/
def endPerm (id st : Nat) (quiet : Bool := false) : Act Unit := do
  match (← get).perm id with
  | none => pure ()
  | some p =>
    descWord (p.desc + 0x18) (st <<< 56)
    descWord (p.desc + 0x20) (← get).now
    modify (fun b => { b with col := { b.col with perms := b.col.perms.filter (fun x => decide (x.comp.id ≠ id)) } })
    endMember p.comp st p.obj p.val quiet

/-- Every collective and permute that passes a test of job and axis ends with a status. -/
def endLine (f : Nat → Nat → Bool) (st : Nat) : Act Unit := do
  (← get).col.colls.forM (fun c => if f c.job c.axis then endColl c.comp.id st else pure ())
  (← get).col.perms.forM (fun c => if f c.job c.axis then endPerm c.comp.id st else pure ())

/-- R130, R173: the collectives of a stream's slot that stops complete with 0x01 (log entry 32). -/
def collFlush (k : Nat) (ctx : BitVec 16) : Act Unit := do
  (← get).col.colls.forM (fun c => if c.comp.slot = k ∧ c.comp.ctx = ctx then endColl c.comp.id 1 true else pure ())
  (← get).col.perms.forM (fun c => if c.comp.slot = k ∧ c.comp.ctx = ctx then endPerm c.comp.id 1 true else pure ())

/-! ### Landings of a collective -/

/-- R266, R267, R582: check what arming an entry over shard `k` needs; the frames and the record's words. -/
def armCheck (c : Coll) (cx : Option Cx) (e k : Nat) : Act (List Nat × List Nat) := do
  let frames ← (List.range c.frames).mapM (fun i => do
    let (a, r) ← collPa c.comp.part c.die (c.at c.dst k i) .wr
    match cx with
    | some x => need ((← get).near x a r) 0x0A
    | none => pure ()
    need (!(← get).pinned a && r.isStore) 0x0A
    pure (a / 8192))
  let recs ← (piecesOf (c.recva + k * c.recLen) (8 * (2 + c.frames))).foldlM (fun acc p => do
    let (a, r) ← collPa c.comp.part c.die p.1 .wr
    need (!(← get).pinned a p.2) 0x02
    match cx with
    | some x => need ((← get).near x a r) 0x0A
    | none => pure ()
    pure (acc ++ (List.range (p.2 / 8)).map (fun i => a + 8 * i))) []
  let b ← get
  need (!(b.collLand c e).armed) 0x0A
  let others := (b.clusterLands c.die (keyPhys c.comp.slot / 4)).filter (fun y => y.2.2.armed)
  need (others.all (fun y => y.2.2.frames.all (fun g => !frames.contains g))) 0x0A
  pure (frames, recs)

/-- Arm an entry over shard `k` (R582). -/
def armColl (c : Coll) (e k expect : Nat) (init : Bool) : Act Unit := do
  let (frames, recs) ← armCheck c none e k
  let l : Landing := {
    st := .armed, frames := frames, fmt := c.fmt, ltag := BitVec.ofNat 16 c.tag, expect := expect, init := init, recPas := recs,
    bits := List.replicate c.frames 0, coll := some c.comp.id, origin := some (BitVec.ofNat 32 c.step - 1) }
  setLand c.comp.slot e l
  landWord l 0 (l.word0 0)
  (List.range (c.frames + 1)).forM (fun i => landWord l (i + 1) 0)

/-- R587: a landing that the cut restricted closes when every tile holds every admitted index. -/
def tryClose (c : Coll) : Act Unit :=
  c.lands.forM (fun x => do
    let l := (← get).collLand c x.2
    match l.admitted with
    | some a => if l.armed && l.bits.all (fun m => decide (m &&& a = a)) then closeLanding c.comp.slot x.2
    | none => pure ())

/-- A landing completes when every tile has EXPECT bits (R273). -/
def tryComplete (c : Coll) (e : Nat) : Act Unit := do
  let l := (← get).collLand c e
  if l.armed && l.full then endLanding c.comp.slot e 1

/-- The member's own shard is added as contribution P; in place when SRC = DST (R582). -/
def addOwn (c : Coll) (e k : Nat) (base idx : Nat) : Act Unit := do
  if c.src = c.dst ∧ base = c.src then
    let l := (← get).collLand c e
    let l := { l with bits := l.bits.map (fun m => m ||| 2 ^ idx) }
    setLand c.comp.slot e l
    (List.zip (List.range l.bits.length) l.bits).forM (fun x => landWord l (2 + x.1) x.2)
    tryComplete c e
  else
    (List.range c.tiles).forM (fun i => do
      match ← attempt (do
        let (f, _) ← collFrame c.comp.part c.die (c.at base k i)
        let (a, _) ← collPa c.comp.part c.die (c.dest k i) .wr
        pure (f, a)) with
      | .error st => modColl c.comp.id (fun c => { c with err := if c.err = 0 then st else c.err })
      | .ok (f, a) =>
        let st ← arrive { addr := a, tag := BitVec.ofNat 16 c.tag, idx := BitVec.ofNat 6 idx, sfmt := BitVec.ofNat 4 c.sfmt.code,
                          dfmt := some (BitVec.ofNat 4 c.fmt.code), f := f, origin := some (BitVec.ofNat 32 c.step - 1), pusher := none }
        if st ≠ 0 then colCount c.die 2 1)

/-! ### Contributions (R582, R588, R589, R604) -/

/-- The TILE_ADD packets of a contribution to shard `k` from a base, with contributor index and origin step. -/
def contribPkts (c : Coll) (n k base idx : Nat) (again : Bool) : Act (List (Packet × Option Nat)) :=
  (List.range c.tiles).mapM (fun i => do
    let (f, a) ← collFrame c.comp.part c.die (c.at base k i)
    let b ← get
    pure ({ op := 0x07, cls := 1, len := 8768, poison := f.hdr.poison, frame := some f, addr := b.peerAddr n (c.dest k i),
            opnd0 := if 16 ≤ idx then word ((c.step + 2 ^ 32 - 1) % 2 ^ 32) else 0,
            aux := BitVec.ofNat 32 (c.fmt.code <<< 28 ||| c.sfmt.code <<< 24 ||| idx <<< 16 ||| c.tag) }, if again then some a else none))

/-- Send a contribution under its key to the member at a position; a frame that cannot be reached gives the collective its
status (log entry 33). -/
def sendContrib (id key k to' base idx : Nat) : Act Unit := do
  match (← get).coll id with
  | none => pure ()
  | some c =>
    match ← attempt (contribPkts c (c.qp to') k base idx (decide (idx < 16))) with
    | .error st => modColl id (fun c => { c with err := if c.err = 0 then st else c.err })
    | .ok ps =>
      modColl id (fun c => { c with owed := c.owed ++ [key] })
      enginePost (c.qp to') c.die c.comp.part (.contrib id key) ps

/-- The position that owns shard `k` now: a lost one's alternate. -/
def Coll.owner (c : Coll) (k : Nat) : Option Nat :=
  if c.lost.testBit k then (c.alts.find? (fun a => decide (a.1 = k))).map (·.2) else some k

/-- One contribution of the member: held (key 16 + k) or its own (key k), or again (key 32 + k). -/
def contribute (id key : Nat) : Act Unit := do
  match (← get).coll id with
  | none => pure ()
  | some c =>
    let k := key % 16
    let base := if key / 16 = 1 then c.pbuf else c.src
    let idx := if key / 16 = 1 then 16 + c.pos else c.pos
    match c.owner k with
    | none => pure ()
    | some o =>
      if o = c.pos then
        match c.lands.find? (fun l => decide (l.1 = k)) with
        | some l => addOwn c l.2 k base idx
        | none => pure ()
      else sendContrib id key k o base idx

/-- A contribution has ended (R583, R588, R589): what was refused is discarded, or held under PENT when all of it was. -/
def contribDone (r : ColRes) : Act Unit := do
  match (← get).coll r.coll with
  | none => pure ()
  | some c =>
    let k := r.pos % 16
    modColl r.coll (fun c => { c with owed := c.owed.erase r.pos })
    if r.status ≠ 0 && (decide (r.pos / 16 = 2) || !c.lost.testBit k) then
      modColl r.coll (fun c => { c with err := if c.err = 0 then r.status else c.err })
    if r.refused ≠ 0 && decide (c.pol ≠ 0 ∨ r.pos / 16 = 1) then
      if c.pol = 2 ∧ r.pos / 16 ≠ 1 ∧ r.refused = r.total then
        (List.range c.tiles).forM (fun i => quietly (do
          let (f, _) ← collFrame c.comp.part c.die (c.at c.src k i)
          let (a, reg) ← collPa c.comp.part c.die (c.at c.pbuf k i) .wr
          writeFrameAt a reg { f with hdr := { f.hdr with stamp := BitVec.ofNat 32 c.step } }))
        modColl r.coll (fun c => { c with held := c.held ||| 2 ^ k })
        colCount c.die 3 r.refused
      else colCount c.die 2 r.refused

/-! ### Fixed order (R591) -/

/-- The owner's next contributor under fixed order: its landing is armed for one more, or the record is written with the
union of the bitmaps. -/
def orderGo : Nat → Nat → Act Unit
  | 0, _ => pure ()
  | fuel + 1, id => do
    let b ← get
    match b.coll id with
    | none => pure ()
    | some c =>
      let l := b.collLand c c.land
      if !c.order || l.armed || decide (c.stage ≠ 0) then pure ()
      else
        let u := if c.begun then (if c.union.isEmpty then l.bits else List.zipWith (fun x y => x ||| y) c.union l.bits) else []
        match c.turns with
        | [] =>
          let l' := { l with bits := u, st := .complete }
          setLand c.comp.slot c.land l'
          landWord l' 0 (l'.word0 1)
          (List.zip (List.range u.length) u).forM (fun x => landWord l' (2 + x.1) x.2)
          modColl id (fun c => { c with order := false })
        | idx :: rest =>
          armColl c c.land c.pos 1 (!c.begun)
          modColl id (fun c => { c with turns := rest, begun := true, union := u })
          if idx = c.pos then
            addOwn c c.land c.pos c.src idx
            orderGo fuel id
          else
            enginePost (c.qp (idx % 16)) c.die c.comp.part (.contrib id 255)
              [({ op := 0x31, cls := 1, addr := b.peerAddr (c.qp (idx % 16)) (c.at c.dst c.pos 0), aux := BitVec.ofNat 32 (idx <<< 16 ||| c.tag) }, none)]

def orderNext (id : Nat) : Act Unit := do
  match (← get).coll id with
  | none => pure ()
  | some c => quietly (orderGo (c.turns.length + 2) id)

/-- Grants that have come for a collective's contributions are used (R591). -/
def useGrants (id : Nat) : Act Unit := do
  match (← get).coll id with
  | none => pure ()
  | some c =>
    c.grants.forM (fun key => do
      let k := key % 16
      let idx := if key / 16 = 1 then 16 + c.pos else c.pos
      let g := (c.qp ((c.owner k).getD k), idx <<< 16 ||| c.tag)
      if (← get).col.granted.contains g then
        modify (fun b => { b with col := { b.col with granted := b.col.granted.erase g } })
        modColl id (fun c => { c with grants := c.grants.erase key })
        contribute id key)

/-! ### Steps -/

/-- R582, R589, R591: begin the reduce step: landings, held contributions, then the member's own. -/
def reduceBegin (id : Nat) : Act Unit := do
  match (← get).coll id with
  | none => pure ()
  | some c =>
    let mine := (c.alts.filter (fun a => decide (a.2 = c.pos))).map (·.1)
    let own := (List.range c.len).filter (fun k => decide (k ≠ c.pos))
    let keys := (bitsOf c.held 16).map (16 + ·) ++ (if c.gives then own else [])
    modColl id (fun c => {
      c with
      held := 0,
      lands := (c.pos, c.land) :: List.zipWith (fun i x => (x, (c.land + 1 + i) % 8)) (List.range mine.length) mine })
    if c.order then
      modColl id (fun c => { c with grants := keys, turns := bitsOf c.s 16 ++ (bitsOf c.q 16).map (16 + ·) })
      orderNext id
      useGrants id
    else
      armColl c c.land c.pos (popcount c.s 16 + popcount c.q 16) true
      (List.zipWith (fun i x => (x, (c.land + 1 + i) % 8)) (List.range mine.length) mine).forM (fun x =>
        armColl c x.2 x.1 (popcount c.s 16) true)
      (bitsOf c.held 16).forM (fun k => contribute id (16 + k))
      if c.gives then
        contribute id c.pos
        own.forM (contribute id)

/-- R581, R584: begin the gather step: the member's shard, those it holds as alternate, and under ALLREDUCE their records,
go to every other member that is not lost. -/
def gatherBegin (id : Nat) : Act Unit := do
  match (← get).coll id with
  | none => pure ()
  | some c =>
    let shards := c.pos :: (c.alts.filter (fun a => decide (a.2 = c.pos))).map (·.1)
    ((List.range c.len).filter (fun m => decide (m ≠ c.pos) && !c.lost.testBit m)).forM (fun m => do
      match ← attempt (shards.foldlM (fun acc k => do
        let fs ← (List.range c.frames).mapM (fun i => do
          let (f, _) ← collFrame c.comp.part c.die (c.at c.dst k i)
          let b ← get
          pure (({ op := 0x01, cls := 1, len := 8768, poison := f.hdr.poison, frame := some f,
                   addr := b.peerAddr (c.qp m) (c.at c.dst k i) } : Packet), (none : Option Nat)))
        let rs ← if c.kind = 3 then (piecesOf (c.recva + k * c.recLen) c.recLen).mapM (fun x => do
            let (a, r) ← collPa c.comp.part c.die x.1 .rd
            let (bs, st) ← readLinesAt a x.2 r
            let b ← get
            pure (({ op := 0x01, cls := 1, len := BitVec.ofNat 16 x.2, poison := decide (st ≠ 0), bytes := bs,
                     addr := b.peerAddr (c.qp m) x.1 } : Packet), (none : Option Nat)))
          else pure []
        pure (acc ++ fs ++ rs)) []) with
      | .error st => modColl id (fun c => { c with err := if c.err = 0 then st else c.err })
      | .ok ps => enginePost (c.qp m) c.die c.comp.part (.contrib id 254) ps)

/-- Has the step of a collective completed (R583, R584)? -/
def Blk.stepDone (b : Blk) (c : Coll) : Bool :=
  if c.stage = 0 then
    c.owed.isEmpty && c.grants.isEmpty && !c.order && c.lands.all (fun l => !(b.collLand c l.2).armed)
  else c.needs.all (fun x => b.col.arrived.contains x)

/-- COLL_STEP_COMPLETE (R583 to R585): collectives of one member on one job and axis complete in issue order. -/
def collStepComplete (id : Nat) : Act Unit := do
  let b ← get
  match b.coll id with
  | none => pure ()
  | some c =>
    if b.stepDone c then
      if c.stage = 0 ∧ c.kind = 3 then
        modColl id (fun c => { c with stage := 1 })
        gatherBegin id
      else
        let earlier := b.col.colls.takeWhile (fun x => decide (x.comp.id ≠ id))
        if earlier.all (fun x => !decide (x.comp.slot = c.comp.slot ∧ x.comp.ctx = c.comp.ctx ∧ x.job = c.job ∧ x.axis = c.axis)) then
          endColl id c.err

/-- COLL_DEADLINE_EXPIRY (R587): the cut, of every landing of the collective that is still armed. -/
def collCut (id : Nat) : Act Unit := do
  match (← get).coll id with
  | none => pure ()
  | some c =>
    if c.stage = 0 ∧ c.pol ≠ 0 then
      c.lands.forM (fun x => do
        let l := (← get).collLand c x.2
        if l.armed && l.admitted.isNone then
          let allow := c.s ||| (if x.1 = c.pos then c.q <<< 16 else 0)
          let a := (l.bits.foldl (fun a m => a ||| m) 0) &&& allow
          setLand c.comp.slot x.2 { l with admitted := some a }
          colCount c.die 1 1)
      tryClose c

/-- COLL_GRACE_EXPIRY (R587). -/
def collGrace (id : Nat) : Act Unit := do
  match (← get).coll id with
  | none => pure ()
  | some c => c.lands.forM (fun x => do
      let l := (← get).collLand c x.2
      if l.armed && l.admitted.isSome then closeLanding c.comp.slot x.2)

/-! ### Permutes (R592, R593) -/

/-- R593: is a range of a partition the source of a permute entry that this package has not read? -/
def Blk.permHolds (b : Blk) (part va n : Nat) : Bool :=
  b.col.perms.any (fun p => decide (p.comp.part = part) &&
    p.unread.any (fun e => decide (e.saddr < va + n ∧ va < e.saddr + e.frames * 8192)))

/-- Read the next entry of a permute and send it (log entry 34). -/
def permRead (id : Nat) : Act Unit := do
  match (← get).perm id with
  | none => pure ()
  | some p =>
    match p.unread with
    | [] => pure ()
    | e :: r =>
      modPerm id (fun p => { p with unread := r })
      let st ← Act.status (do
        let fs ← (List.range e.frames).mapM (fun i => do pure (← collFrame p.comp.part p.die (e.saddr + i * 8192)).1)
        let n := nth p.qps 65536 e.dpos
        if e.dpos = p.pos then
          (List.zip (List.range e.frames) fs).forM (fun x => do
            let (a, reg) ← collPa p.comp.part p.die (e.daddr + x.1 * 8192) .wr
            need (!(← get).pinned a) 0x02
            writeFrameAt a reg x.2)
        else
          let b ← get
          modPerm id (fun p => { p with out := p.out + 1 })
          enginePost n p.die p.comp.part (.contrib id 0) ((List.zip (List.range e.frames) fs).map (fun x =>
            ({ op := 0x01, cls := 1, len := 8768, poison := x.2.hdr.poison, frame := some x.2,
               addr := b.peerAddr n (e.daddr + x.1 * 8192) }, none))))
      if st ≠ 0 then modPerm id (fun p => { p with err := if p.err = 0 then st else p.err })

/-- What a permute does when something has happened: it reads on, tells the line that it is done, and completes. -/
def permStep (id : Nat) : Act Unit := do
  permRead id
  let b ← get
  match b.perm id with
  | none => pure ()
  | some p =>
    if p.err ≠ 0 then endPerm id p.err
    else
      let live ← match ← attempt (readJob p.job) with
        | .ok r => pure ((List.range p.len).filter (fun m => decide (m ≠ p.pos ∧ r.mstate p.axis m ≠ 2)))
        | .error _ => pure ((List.range p.len).filter (fun m => decide (m ≠ p.pos)))
      let liveQps := live.map (fun m => nth p.qps 65536 m)
      let waits := p.awaited.filter (fun x => liveQps.contains x.1)
      if !p.told && p.unread.isEmpty && decide (p.out = 0) && waits.all (fun x => b.col.arrived.contains x) then
        useArrived p.awaited
        modPerm id (fun p => { p with told := true, awaited := [] })
        live.forM (fun m => enginePost (nth p.qps 65536 m) p.die p.comp.part (.contrib id 255) [({ op := 0x3B, cls := 1 }, none)])
      match (← get).perm id with
      | some p =>
        if p.told && liveQps.all (fun q => b.col.pdone.contains q) then
          modify (fun b => { b with col := { b.col with pdone := liveQps.foldl (fun l q => l.erase q) b.col.pdone } })
          endPerm id 0
      | none => pure ()

/-- The engine looks at what has changed: contributions that have ended, cuts, grants, permutes. -/
def colSettle : Act Unit := do
  let rs := (← get).col.results
  modify (fun b => { b with col := { b.col with results := [] } })
  rs.forM (fun r => do
    if 254 ≤ r.pos then pure ()
    else if ((← get).perm r.coll).isSome then
      modPerm r.coll (fun p => { p with out := p.out - 1, err := if p.err = 0 then r.status else p.err })
    else contribDone r)
  (← get).col.colls.forM (fun c => do
    tryClose c
    orderNext c.comp.id
    useGrants c.comp.id)
  (← get).col.perms.forM (fun p => permStep p.comp.id)

/-- A frame or record of another member has been written over a queue pair of a job (R584, R593). -/
def colArrive (n va : Nat) : Act Unit := do
  if (← jobOfQp n).isSome then modify (fun b => { b with col := { b.col with arrived := b.col.arrived ++ [(n, va)] } })

/-! ### Mirror (R594 to R598) -/

/-- Is the pairing in use: EN set and not ALONE (R598)? -/
def Blk.mirrorOn (b : Blk) : Bool := bit (b.reg Reg.colMirror) 63 && decide (b.fld Reg.colMirror 61 60 ≠ 2)

/-- PENDING of COL_MIRROR_STS. -/
def mirPending : Act Unit := do
  let n := (← get).col.unacked.length
  setFld Reg.colMirrorSts 31 0 (min n (2 ^ 32 - 1))

/-- Send a mirror frame (R594). -/
def mirrorPut (m : MirFrame) : Act Unit := do
  let n := (← get).fld Reg.colMirror 15 0
  quietly (do
    let (a, r) := (← get).resolve m.pa
    let (f, st) ← readFrameAt a r
    let f := { f with hdr := { f.hdr with poison := f.hdr.poison || decide (st ≠ 0) } }
    enginePost n (((← get).qp n).getD {}).die 0 (.contrib 0 255)
      [({ op := 0x38, cls := 5, len := 8768, poison := f.hdr.poison, frame := some f, addr := word m.pa, aux := BitVec.ofNat 32 m.seq }, none)])

/-- MIRROR_SEND (R594): frames that a RUN has committed go to the partner. -/
def mirrorSend (run : Nat) (pas : List Nat) : Act Unit :=
  pas.forM (fun a => do
    let b ← get
    let m : MirFrame := ⟨(b.col.mseq + 1) % 2 ^ 32, a, run⟩
    set { b with col := { b.col with mseq := m.seq, unacked := b.col.unacked ++ [m] } }
    mirPending
    mirrorPut m)

/-- R411: what a RUN does once nothing holds its signal back: the signal, and CSTEP in the shard block. -/
def runFinish (r : RunSt) : Act Unit := do
  modify (fun b => { b with runs := b.runs.filter (fun x => decide (x.id ≠ r.id)) })
  if r.unmir then countFld Reg.colMirrorSts 47 32 1
  match r.sobj with
  | some (o, v) => giveSignal r.part o v r.ctx.toNat
  | none => pure ()
  quietly (writePa ⟨none⟩ (r.blk + 0x5C) (natLe 4 r.step))
  finish r.id

/-- The RUNs that wait for the partner and need not any longer complete. -/
def runSettle : Act Unit := do
  ((← get).runs.filter (fun r => r.waits && (r.acked || r.unmir))).forM runFinish

/-- The partner has acknowledged every frame up to a number (R595). -/
def mirrorAcked (n upto : Nat) : Act Unit := do
  let b ← get
  if n = b.fld Reg.colMirror 15 0 then
    let gone := b.col.unacked.filter (fun m => decide (diff32 m.seq upto ≤ 0))
    set ({ b with col := { b.col with unacked := b.col.unacked.filter (fun m => decide (0 < diff32 m.seq upto)) } })
    modify (fun b => { b with runs := b.runs.map (fun r =>
      if gone.any (fun m => decide (m.run = r.id)) ∧ !b.col.unacked.any (fun m => decide (m.run = r.id)) then { r with acked := true } else r) })
    gone.forM (fun m => colCount (if m.pa < hbmBase 1 then 0 else 1) 7 1)
    mirPending
    runSettle

/-- A mirror frame has been refused (R596). -/
def mirrorFail (seq : Nat) : Act Unit := do
  let b ← get
  match b.col.unacked.find? (fun m => decide (m.seq = seq)) with
  | none => pure ()
  | some m =>
    setFld Reg.colMirrorSts 63 63 1
    if b.fld Reg.colMirror 61 60 = 1 then setFld Reg.colMirror 61 60 3
    post { code := 0x0C, sev := 2, d0 := m.pa, d1 := seq }

/-- The pairing becomes ALONE (R598): no RUN waits any longer. -/
def mirrorAlone : Act Unit := do
  setFld Reg.colMirror 61 60 2
  modify (fun b => {
    b with
    col := { b.col with unacked := [] },
    runs := b.runs.map (fun r => if r.acked then r else { r with unmir := true }) })
  mirPending
  runSettle

/-- R595: a received mirror write: the frame goes where the map says, and the acknowledgement names the highest number up
to which every frame is visible.  Numbers begin at 1 when a pairing begins (log entry 35). -/
def mirrorIn (n : Nat) (p : Packet) : Act Nat := do
  let b ← get
  let off := p.addr.toNat - 0x040000000000
  let w := b.reg Reg.colMmap
  if !bit w 63 || decide (p.addr.toNat < 0x040000000000 ∨ 0x10000000000 ≤ off) then pure 0x02
  else
    match p.frame with
    | none => pure 0x02
    | some f =>
      let st ← Act.status (do
        let e ← readWord (bits w 47 22 * 2 ^ 22 + 8 * (off / 2 ^ 21))
        need (bit e 63) 0x02
        let (a, r) := (← get).resolve (bits e 47 21 * 2 ^ 21 + off % 2 ^ 21)
        need (decide (r = .ddr)) 0x02
        writeFrameAt a r { f with hdr := { f.hdr with poison := f.hdr.poison || p.poison } })
      if st ≠ 0 then pure st
      else
        let seq := p.aux.toNat
        let b ← get
        let (nxt, seen) := if seq = 1 then (1, []) else sget (1, []) b.col.mseen n
        let seen := if 0 ≤ diff32 seq nxt then seen ++ [seq] else seen
        let (nxt, seen) := seen.foldl (fun (x : Nat × List Nat) _ => if x.2.contains x.1 then ((x.1 + 1) % 2 ^ 32, x.2.erase x.1) else x) (nxt, seen)
        modify (fun b => { b with col := { b.col with mseen := sset (1, []) b.col.mseen n (nxt, seen) } })
        enginePost n ((b.qp n).getD {}).die 0 (.contrib 0 255) [({ op := 0x39, cls := 5, aux := BitVec.ofNat 32 ((nxt + 2 ^ 32 - 1) % 2 ^ 32) }, none)]
        pure 0

end Sys2Proof.Machine
end

