-- ==== Sys2Proof/Machine/Loss.lean ====
section
/-! DEFINITION. Quarantine and package loss (12_collectives_and_pairs.md R599 to R607). -/
namespace Sys2Proof.Machine

/-- Write a word of a job record (R574, R785). -/
def jobWrite (r : JobRec) (off : Nat) (v : Word) : Act Unit := tableWrite 4 (r.base + off) v r.j

/-- The offset of a position's member entry, and of an axis word (R574). -/
def memberOff (x p : Nat) : Nat := 0x100 * (x + 1) + 8 + 8 * p
def axisOff (x : Nat) : Nat := 0x100 * (x + 1)

/-- QUARANTINE (R603, R607): QUAR is set, every collective of the job ends with 0x04, the pairing becomes ALONE. -/
def quarantine (r : JobRec) : Act Unit := do
  jobWrite r 0 (setBit r.w0 31 true)
  endLine (fun j _ => decide (j = r.j)) 0x04
  if (← get).fld Reg.colMirror 61 60 ≠ 0 then mirrorAlone

/-- R607: a NAK 0x04 on a queue pair of a job. -/
def staleNak (n : Nat) : Act Unit := do
  match ← jobOfQp n with
  | some (r, _, _) => quarantine r
  | none => pure ()

/-- The lanes whose recorded peer is a package (R599): those with a recorded hello. -/
def Blk.peerLanes (b : Blk) (pkg : Nat) : List Nat :=
  (List.range 48).filter (fun n => (b.port n).peer.isSome && decide (b.fld (Reg.fabLaneSts n) 47 36 = pkg))

/-- R599: are there lanes to the package, and has every one left UP? -/
def Blk.pkgDown (b : Blk) (pkg : Nat) : Bool := !(b.peerLanes pkg).isEmpty && (b.peerLanes pkg).all (fun n => decide (b.laneSt n ≠ 5))

/-- The positions of a line that hold a package and are not lost. -/
def JobRec.posOf (r : JobRec) (x pkg : Nat) : List Nat :=
  (List.range (r.len x)).filter (fun p => decide (p ≠ r.pos x ∧ r.pkg x p = pkg ∧ r.mstate x p ≠ 2))

/-- Does the line close on itself: a ring, or a ring that lost a position? -/
def JobRec.round (r : JobRec) (x : Nat) : Bool := r.ring x || (List.range (r.len x)).any (fun p => decide (r.mstate x p = 2))

/-- The next position of a line in a direction: up (+) or down (−). -/
def JobRec.next (r : JobRec) (x : Nat) (up : Bool) : Option Nat :=
  let l := r.len x
  let p := r.pos x
  if up then (if p + 1 < l then some (p + 1) else if r.round x then some 0 else none)
  else (if 0 < p then some (p - 1) else if r.round x then some (l - 1) else none)

/-- The direction away from a position: down when that position is nearer going up (R601). -/
def JobRec.away (r : JobRec) (x lost : Nat) : Bool :=
  let l := r.len x
  let up := (lost + l - r.pos x) % l
  if r.round x then decide (l < 2 * up) else decide (lost < r.pos x)

/-- The positions that a path to `m` passes in a direction. -/
def JobRec.passes (r : JobRec) (x : Nat) (up : Bool) (m : Nat) : List Nat :=
  let l := r.len x
  let d := if up then (m + l - r.pos x) % l else (r.pos x + l - m) % l
  (List.range (d - 1)).map (fun i => if up then (r.pos x + 1 + i) % l else (r.pos x + l - 1 - i) % l)

/-- R600 step 3 for one member: its route entry, when the path it names passes a lost position; a line that leaves no path
makes it not VALID (log entry 38). -/
def reroute (r : JobRec) (x lost m : Nat) : Act Unit := do
  let b ← get
  let pkg := r.pkg x m
  let bad (up : Bool) : Bool :=
    (r.passes x up m).any (fun p => decide (p = lost ∨ r.mstate x p = 2)) ||
      (!r.round x && (if up then decide (m < r.pos x) else decide (r.pos x < m)))
  let old := b.route pkg
  if old = some (2 * x + 1) ∧ bad true ∨ old = some (2 * x + 2) ∧ bad false then
    let e := if !bad true then 0x80 ||| (2 * x + 1) else if !bad false then 0x80 ||| (2 * x + 2) else 0
    setFld (Reg.xptRoute (pkg / 8)) (8 * (pkg % 8) + 7) (8 * (pkg % 8)) e
    (← get).xpt.qps.forM (fun nq => match nq.2 with
      | some q => if q.peerPkg = pkg then q.sent.forM (resend nq.1) else pure ()
      | none => pure ())
    kick

/-- R604: a collective in progress on a line that became a chain. -/
def convertColl (r : JobRec) (lost : Nat) (id : Nat) : Act Unit := do
  match (← get).coll id with
  | none => pure ()
  | some c =>
    let alt := r.alt c.axis lost
    modColl id (fun c => { c with lost := c.lost ||| 2 ^ lost })
    if c.stage ≠ 0 then pure ()
    else
      let s := c.s - (c.s &&& 2 ^ lost)
      let q := c.q - (c.q &&& 2 ^ lost)
      let order := bitsOf c.s 16 ++ (bitsOf c.q 16).map (16 + ·)
      let now := order[order.length - c.turns.length - 1]?
      modColl id (fun c => {
        c with
        s := s, q := q,
        turns := c.turns.filter (fun i => decide (i % 16 ≠ lost)),
        grants := c.grants.filter (fun k => decide (k % 16 ≠ lost)),
        alts := match alt with
          | some a => c.alts ++ [(lost, a)]
          | none => c.alts })
      let gone := 2 ^ lost ||| 2 ^ (16 + lost)
      c.lands.forM (fun x => do
        let l := (← get).collLand c x.2
        let l' := {
          l with
          skip := l.skip ||| gone,
          expect := if c.order then l.expect else popcount s 16 + (if x.1 = c.pos then popcount q 16 else 0),
          admitted := l.admitted.map (fun a => a - (a &&& gone)) }
        if c.order && l.armed && (match now with
            | some i => decide (i % 16 = lost)
            | none => false) then setLand c.comp.slot x.2 { l' with st := .complete }
        else if l.armed then
          setLand c.comp.slot x.2 l'
          landWord l' 0 (l'.word0 0)
          tryComplete c x.2)
      match alt with
      | none => pure ()
      | some a =>
        if a = c.pos then
          let st ← Act.status (armColl { c with s := s } ((c.land + 1) % 8) lost (popcount s 16) true)
          if st = 0 then modColl id (fun c => { c with lands := c.lands ++ [(lost, (c.land + 1) % 8)] })
          else modColl id (fun c => { c with err := if c.err = 0 then st else c.err })
        if c.gives then contribute id (32 + lost)

/-- R600 for one line: membership, queue pairs, routes, pairing, record; then R604 or R605, and R601's notice to the next
member away from the lost position. -/
def markLoss (r : JobRec) (x lost pkg : Nat) (decl brk : Bool) (up : Bool) : Act Unit := do
  let chain := !brk && decide (x = r.daxis) && r.ring x && (List.range (r.len x)).all (fun p => decide (r.mstate x p ≠ 2))
  let epoch := if chain then (r.epoch + 1) % 2 ^ 32 else r.epoch
  modify (fun b => { b with col := { b.col with heard := b.col.heard ++ [(r.j, x, lost, epoch)] } })
  if chain then
    jobWrite r (memberOff x lost) (setBits (r.member x lost) 63 62 2)
    jobWrite r (axisOff x) (setBit (r.axis x) 55 false)
    jobWrite r 0 (setBits r.w0 63 32 epoch)
    r.allQps.forM (fun n => do
      modQp n (fun q => { q with epoch := epoch })
      let a := (← get).ctxAddr n + 0x18
      match ← attempt (readWord a) with
      | .ok w => tableWrite 0 a (setBits w 63 32 epoch) n
      | .error _ => pure ())
  else jobWrite r (axisOff x) (setBit (r.axis x) 54 true)
  (← get).xpt.qps.forM (fun nq => match nq.2 with
    | some q => if q.peerPkg = pkg then qpError nq.1 8 q.una else pure ()
    | none => pure ())
  ((List.range (r.len x)).filter (fun m => decide (m ≠ r.pos x ∧ m ≠ lost ∧ r.mstate x m ≠ 2))).forM (reroute r x lost)
  let b ← get
  if b.fld Reg.colMirror 55 44 = pkg ∧ bit (b.reg Reg.colMirror) 63 then mirrorAlone
  jobWrite r 8 (word b.now)
  setReg Reg.colLoss (word (1 <<< 63 ||| r.j <<< 56 ||| x <<< 54 ||| b2n decl <<< 53 ||| b2n (!chain) <<< 52 ||| lost <<< 48
    ||| pkg <<< 32 ||| epoch))
  post { code := 0x0D, sev := 2, d0 := ((← get).reg Reg.colLoss).toNat }
  match r.next x up with
  | some t =>
    if t ≠ lost ∧ t ≠ r.pos x ∧ r.mstate x t ≠ 2 then
      let n := r.qp x t
      match (← get).qp n with
      | some q =>
        enginePost n q.die r.part (.contrib 0 255)
          [({ op := 0x34, cls := 1, opnd0 := word epoch, opnd1 := word pkg, aux := BitVec.ofNat 32 (x <<< 4 ||| lost) }, none)]
      | none => pure ()
  | none => pure ()
  if chain then
    (← get).col.colls.forM (fun c => if c.job = r.j ∧ c.axis = x then convertColl r lost c.comp.id else pure ())
  else endLine (fun j a => decide (j = r.j ∧ a = x)) 0x08

/-- R599, R600, R603: the package declares a neighbour lost.  A job whose data ring would lose both neighbours is
quarantined instead; the loss is counted on the die of the lowest lane to the package (log entry 39). -/
def declareLoss (pkg : Nat) : Act Unit := do
  let b ← get
  if b.pkgDown pkg && !b.col.declared.contains pkg then
    let js ← jobsOn
    let lines := (js.filter (fun r => !r.quar)).flatMap (fun r =>
      (List.range 4).flatMap (fun x => (r.posOf x pkg).map (fun p => (r, x, p))))
    let both (l : JobRec × Nat × Nat) : Bool :=
      let (r, x, p) := l
      let n := r.len x
      let other := if (p + n - r.pos x) % n = 1 then (r.pos x + n - 1) % n else (r.pos x + 1) % n
      decide (x = r.daxis) && r.ring x && decide (other ≠ r.pos x ∧ other ≠ p) && b.pkgDown (r.pkg x other)
    let quar := ((lines.filter both).map (·.1)).eraseDups
    let lines := lines.filter (fun l => !quar.any (fun r => decide (r.j = l.1.j)))
    quar.forM quarantine
    if quar.isEmpty || !lines.isEmpty then
      modify (fun b => { b with col := { b.col with declared := b.col.declared ++ [pkg] } })
      colCount (laneDie ((b.peerLanes pkg).headD 0)) 5 1
      lines.forM (fun l => do
        match ← attempt (readJob l.1.j) with
        | .ok r => markLoss r l.2.1 l.2.2 pkg true false (r.away l.2.1 l.2.2)
        | .error _ => pure ())
      let b ← get
      if lines.isEmpty then
        b.xpt.qps.forM (fun nq => match nq.2 with
          | some q => if q.peerPkg = pkg then qpError nq.1 8 q.una else pure ()
          | none => pure ())
        if b.fld Reg.colMirror 55 44 = pkg ∧ bit (b.reg Reg.colMirror) 63 then mirrorAlone
    colSettle

/-- R601, R602: a loss notice that came on a queue pair of a job. -/
def noticeIn (n die : Nat) (p : Packet) : Act Unit := do
  match ← jobOfQp n with
  | none => pure ()
  | some (r, x, from') =>
    let lost := p.aux.toNat % 16
    let e := p.opnd0.toNat % 2 ^ 32
    if p.aux.toNat / 16 % 4 ≠ x ∨ r.len x ≤ lost ∨ lost = r.pos x ∨ r.quar then pure ()
    else if (e = r.epoch ∧ r.mstate x lost = 2) ∨ (r.j, x, lost, e) ∈ (← get).col.heard ∨ diff32 e r.epoch < 0 then pure ()
    else
      let pkg := p.opnd1.toNat % 4096
      colCount die 6 1
      modify (fun b => if b.col.declared.contains pkg then b else { b with col := { b.col with declared := b.col.declared ++ [pkg] } })
      let up := decide (r.next x false = some from') && (decide (r.next x true ≠ some from'))
      markLoss r x lost pkg false (decide (e ≠ (r.epoch + 1) % 2 ^ 32)) up

/-- LOSS_HOLD_EXPIRY (R599). -/
def execLossHoldExpiry (pkg : BitVec 12) (s : State) : Host.Outcome State Fault Refusal := s.act (declareLoss pkg.toNat)

end Sys2Proof.Machine
end

