-- ==== Sys2Proof/Machine/Target.lean ====
section
/-! DEFINITION. A package as the target of Cragil requests: order, checks, what each packet does, answers
(11_one_memory_space.md R534 to R541, R546 to R552, R558 to R564, R568). -/
namespace Sys2Proof.Machine

/-! ### The window table (R547, R548) -/

def Blk.winAddr (b : Blk) (p w : Nat) : Nat := b.fld Reg.xptWinBase 47 23 * 2 ^ 23 + (p * 256 + w) * 32

/-- A window entry: the cached copy, or the table's, which is cached. -/
def winEntry (p w : Nat) : Act (List Word) := do
  let b ← get
  match sget [] b.xpt.wins (p * 256 + w) with
  | [] =>
    let ws ← readWords (b.winAddr p w) 4
    modify (fun b => { b with xpt := { b.xpt with wins := sset [] b.xpt.wins (p * 256 + w) ws } })
    pure ws
  | ws => pure ws

/-- The bytes of an atomic's value (R560). -/
def atomSize (t : Nat) : Nat := match t with
  | 0 => 8
  | 3 => 2
  | _ => 4

/-- R560: does an AOP go with a TYPE? -/
def atomOk (aop t : Nat) : Bool := decide (aop ≠ 3 ∧ t ≤ 3) && (decide (aop ≠ 2) || decide (t ≤ 1))

/-- The bytes of the target's memory that a request concerns (R549 check 8). -/
def reqSpan (p : Packet) : Nat :=
  if p.op = 0x03 then p.opnd0.toNat
  else if p.op = 0x05 then atomSize (p.aux.toNat / 2 ^ 27 % 8)
  else if p.op = 0x07 then (if p.aux.toNat / 2 ^ 28 % 16 = p.aux.toNat / 2 ^ 24 % 16 then 8192 else 16384)
  else if p.frame.isSome then 8192
  else p.bytes.length

/-- The bit of a window entry that permits an operation (R547). -/
def winBit (op : BitVec 8) : Nat := if op = 0x03 then 62 else if op = 0x05 then 60 else if op = 0x07 then 59 else 61

/-- Does a request give a signal (R523, R558; log entry 29)? -/
def givesSignal (p : Packet) : Bool := p.last && (decide (p.op = 0x02) || (decide (p.op = 0x07) && decide (p.opnd1 ≠ 0)))

/-- R549 checks 5 to 9. -/
def reqChecks (p : Packet) : Act Unit := do
  let b ← get
  let part := p.dstPart.toNat
  let k := b.reg (Reg.xptPkey part)
  need (p.kgen.toNat = bits k 63 48) 0x03
  need (decide (p.key.toNat = bits k 47 0) && decide (p.key ≠ 0)) 0x02
  need (bit (b.reg Reg.xptWinBase) 0) 0x02
  match ← attempt (winEntry part p.win.toNat) with
  | .error _ => throw 0x02
  | .ok ws =>
    let e := nth ws (0 : Word) 0
    need (bit e 63) (if bit (nth ws 0 3) 63 then 0x03 else 0x02)
    let off := p.addr.toNat % 2 ^ 42
    let src := match bits e 57 56 with
      | 0 => true
      | 1 => decide (p.srcPkg.toNat = bits e 55 44)
      | 2 => decide (p.srcPkg.toNat = bits e 55 44 ∧ p.srcPart.toNat = bits e 41 32)
      | _ => false
    need (decide (bits (nth ws 0 1) 41 0 ≤ off ∧ off + reqSpan p ≤ bits (nth ws 0 2) 41 0 + 1) && bit e (winBit p.op) && src) 0x02
    if givesSignal p then need (bit e 58 && b.ownsSync part (bits p.opnd1 63 50)) 0x02

/-! ### What requests do -/

/-- The pieces of a range of a partition, resolved for a request of die `d` (R48, R447); a core that moves makes the
request wait (R643). -/
def reqPieces (d part off n : Nat) (p : Perm) : Act (List (Nat × Region × Nat)) :=
  (piecesOf off n).mapM (fun q => do
    let pa ← translate part q.1 p
    let (a, r) ← engineAddr ⟨some d⟩ pa
    if (← get).heldStore r then throw notYet
    pure (a, r, q.2))

/-- What a write must meet: no pin (R407), no HOLD on the DDR5 tier (R535), no unread source of a permute (R593). -/
def writeGuard (part off n : Nat) (ps : List (Nat × Region × Nat)) : Act Unit := do
  let b ← get
  need (ps.all (fun x => !b.pinned x.1 x.2.2)) 0x02
  if (b.hold && ps.any (fun x => decide (x.2.1 = .ddr))) || b.permHolds part off n then throw notYet

/-- The new value of an atomic (R560, R561). -/
def atomNew (aop t : Nat) (old x cmp : Nat) : Nat :=
  let m := 2 ^ (8 * atomSize t)
  if aop = 2 then (if old = cmp % m then x % m else old)
  else if t = 2 then toF32 ((f32.decode old).add (f32.decode (x % m)))
  else if t = 3 then (bf16.convert .rne false 0 ((bf16.decode old).add (bf16.decode (x % m)))).1
  else (old + x) % m

/-- R561: an atomic at the home of its line; answers the old value and the status of the read. -/
def atomicAt (a : Nat) (r : Region) (aop t : Nat) (x cmp : Word) : Act (Nat × Nat) := do
  let n := atomSize t
  devClean a n
  let (bs, st) ← readLinesAt a n r
  if st ≠ 0 then pure (0, st)
  else
    let old := leNat bs
    writeLinesAt a r (natLe n (atomNew aop t old x.toNat cmp.toNat))
    pure (old, 0)

/-- The parts of a read: offset, frame or bytes, poison, status; an uncorrectable part ends it (R559, R564). -/
structure ReadPart where
  off : Nat
  frame : Option Frame := none
  bytes : List Byte := []
  poison : Bool := false
  status : Nat := 0
deriving DecidableEq, Repr

def readParts (fr : Bool) (ps : List (Nat × Region × Nat)) : Act (List ReadPart) := do
  let l ← ps.foldlM (fun (acc : Nat × Bool × List ReadPart) x => do
    let (off, stop, out) := acc
    if stop then pure acc
    else if fr then
      let (f, st) ← readFrameAt x.1 x.2.1
      if st = 6 then pure (off + 8192, true, out ++ [{ off := off, status := 6 }])
      else pure (off + 8192, false,
        out ++ [{ off := off, frame := some { f with hdr := { f.hdr with poison := decide (st ≠ 0) } }, poison := decide (st ≠ 0) }])
    else
      let (bs, st) ← readLinesAt x.1 x.2.2 x.2.1
      if st = 6 then pure (off + x.2.2, true, out ++ [{ off := off, status := 6 }])
      else pure (off + x.2.2, false, out ++ [{ off := off, bytes := bs, poison := decide (st ≠ 0) }])) (0, false, [])
  pure l.2.2

/-- What one request did: a status that does not put the queue pair in error, the responses to give, an atomic's result. -/
structure Served where
  status : Nat := 0
  answers : List Packet := []
  result : Option Word := none
deriving DecidableEq, Repr

/-- READ (R559). -/
def serveRead (d : Nat) (p : Packet) : Act Served := do
  let part := p.dstPart.toNat
  let off := p.addr.toNat % 2 ^ 42
  let fr := bit p.opnd1 0
  need (!fr || decide (off % 8192 = 0 ∧ p.opnd0.toNat % 8192 = 0)) 0x0A
  let ps ← reqPieces d part off p.opnd0.toNat .rd
  let l ← readParts fr ps
  pure { answers := l.map (fun x => {
    backPkt p 0x04 4 with
    aux := p.psn, opnd0 := word x.off, poison := x.poison, status := BitVec.ofNat 8 x.status, frame := x.frame, bytes := x.bytes,
    len := BitVec.ofNat 16 (if x.frame.isSome then 8768 else x.bytes.length) }) }

/-- ATOMIC (R560, R561): the response carries the old value; a bad frame gives the response its status (R564). -/
def serveAtomic (d : Nat) (p : Packet) : Act Served := do
  let part := p.dstPart.toNat
  let off := p.addr.toNat % 2 ^ 42
  let aop := p.aux.toNat / 2 ^ 30
  let t := p.aux.toNat / 2 ^ 27 % 8
  need (atomOk aop t && decide (off % atomSize t = 0)) 0x0A
  let ps ← reqPieces d part off (atomSize t) .wr
  writeGuard part off (atomSize t) ps
  let (old, st) ← match ps with
    | [x] => atomicAt x.1 x.2.1 aop t p.opnd0 p.opnd1
    | _ => throw 0x0A
  pure { answers := [{ backPkt p 0x06 3 with aux := p.psn, opnd0 := word old, status := BitVec.ofNat 8 st }], result := some (word old) }

/-- WRITE and WRITE with signal (R557, R558, R564). -/
def serveWrite (d : Nat) (p : Packet) : Act Served := do
  let part := p.dstPart.toNat
  let off := p.addr.toNat % 2 ^ 42
  match p.frame with
  | some f =>
    need (off % 8192 = 0) 0x0A
    let ps ← reqPieces d part off 8192 .wr
    writeGuard part off 8192 ps
    ps.forM (fun x => writeFrameAt x.1 x.2.1 { f with hdr := { f.hdr with poison := f.hdr.poison || p.poison } })
  | none =>
    let n := p.bytes.length
    let ps ← reqPieces d part off n .wr
    writeGuard part off n ps
    let _ ← ps.foldlM (fun rest x => do
      writeLinesAt x.1 x.2.1 (rest.take x.2.2)
      if x.2.1 = .ddr then modify (·.devTouch d x.1 x.2.2)
      if p.poison then poisonFrame x.1
      pure (rest.drop x.2.2)) p.bytes
  pure {}

/-- TILE_ADD (R562, R563, R589). -/
def serveTile (d : Nat) (p : Packet) : Act Served := do
  let part := p.dstPart.toNat
  let off := p.addr.toNat % 2 ^ 42
  let a := p.aux.toNat
  match p.frame with
  | none => throw 0x0A
  | some f =>
    need (off % 8192 = 0) 0x0A
    let ps ← reqPieces d part off 8192 .wr
    writeGuard part off (reqSpan p) ps
    let pa := (ps.head?.map (·.1)).getD 0
    let idx := a / 65536 % 64
    let st ← arrive {
      addr := pa, tag := BitVec.ofNat 16 a, idx := BitVec.ofNat 6 idx, sfmt := BitVec.ofNat 4 (a / 2 ^ 24),
      dfmt := some (BitVec.ofNat 4 (a / 2 ^ 28)), f := { f with hdr := { f.hdr with poison := f.hdr.poison || p.poison } },
      origin := if 16 ≤ idx then some (BitVec.ofNat 32 p.opnd0.toNat) else none, pusher := none }
    if st = 0 ∧ 16 ≤ idx then colCount d 4 1
    pure { status := st }

/-- A frame or tile of the collective engines and the mirror (12): the engine judges it; what it refuses is answered with a
NAK and no error of the queue pair. -/
def serveEngine (n : Nat) (q : QpSt) (p : Packet) : Act Served := do
  let ofJob := (← jobOfQp n).isSome
  if p.op = 0x38 then
    if q.part ≠ 0 then pure { status := 0x02 } else pure { status := (← mirrorIn n p) }
  else if p.op = 0x39 then
    mirrorAcked n p.aux.toNat
    pure {}
  else if !ofJob then pure { status := 0x02 }
  else
    if p.op = 0x31 then modify (fun b => { b with col := { b.col with granted := b.col.granted ++ [(n, p.aux.toNat)] } })
    else if p.op = 0x3B then modify (fun b => { b with col := { b.col with pdone := b.col.pdone ++ [n] } })
    else noticeIn n q.die p
    pure {}

/-- Is it a packet of the collective engines or the mirror (R523)? -/
def engineOp (op : BitVec 8) : Bool := decide (0x30 ≤ op.toNat ∧ op.toNat ≤ 0x3F)

/-- One request that is next: checks 5 to 10 of R549, then its effect and its signal.  Ends with the status of a refusal, or
with "not yet" where the answer is RNR. -/
def serve (n : Nat) (q : QpSt) (p : Packet) : Act Served := do
  if engineOp p.op then serveEngine n q p
  else
    reqChecks p
    let r ← if p.op = 0x03 then serveRead q.die p
      else if p.op = 0x05 then serveAtomic q.die p
      else if p.op = 0x07 then serveTile q.die p
      else serveWrite q.die p
    if p.op = 0x01 then colArrive n (p.addr.toNat % 2 ^ 42)
    if givesSignal p && decide (r.status = 0) then giveSignal p.dstPart.toNat (bits p.opnd1 63 50) (word (bits p.opnd1 31 0))
    pure r

/-! ### Order (R538 to R541, R552) -/

/-- An applied packet counts toward the next ACK (R541). -/
def applied (n : Nat) (p : Packet) : Act Unit := do
  modQp n (fun q => { q with unacked := q.unacked + 1 })
  let b ← get
  let k := b.fld Reg.xptCtrl 23 16
  match b.qp n with
  | some q => if p.last ∨ max k 1 ≤ q.unacked then sendAck n
  | none => pure ()

/-- Give answers to the lanes. -/
def answer (l : List Packet) : Act Unit := do
  l.forM (fun p => outPkt p)
  kick

/-- Take the packet that is next (R538, R549 check 4, R551, R552): has it been applied? -/
def takeOne (n : Nat) (p : Packet) : Act Bool := do
  match (← get).qp n with
  | none => pure false
  | some q =>
    let e := p.epoch.toNat
    if e ≠ 0 ∧ q.epoch ≠ 0 ∧ e ≠ q.epoch then
      if diff32 e q.epoch < 0 then nak p q.die 4 else rnr p q.die
      pure false
    else
      match ← attempt (serve n q p) with
      | .error st =>
        if st = notYet then rnr p q.die
        else
          qpError n st p.psn.toNat
          nak p q.die st
        pure false
      | .ok r =>
        modQp n (fun q => {
          q with
          epsn := psnAdd q.epsn 1,
          results := match r.result with
            | some v => (q.results ++ [(p.psn.toNat, v)]).drop (q.results.length - 7)
            | none => q.results })
        if r.status ≠ 0 then nak p q.die r.status
        answer r.answers
        applied n p
        pure true

/-- Take stored packets for as long as the next one is there (R538). -/
def drainGo : Nat → Nat → Act Unit
  | 0, _ => pure ()
  | fuel + 1, n => do
    let b ← get
    match b.qp n with
    | none => pure ()
    | some q =>
      match b.xpt.pool.find? (fun x => decide (x.1 = n ∧ x.2.psn.toNat = q.epsn)) with
      | none => pure ()
      | some x =>
        if q.err.isSome then pure ()
        else
          set { b with xpt := { b.xpt with pool := b.xpt.pool.erase x } }
          if ← takeOne n x.2 then drainGo fuel n

/-- A duplicate (R540). -/
def duplicate (n : Nat) (q : QpSt) (p : Packet) : Act Unit := do
  if p.op = 0x03 then
    match ← attempt (do
      reqChecks p
      serveRead q.die p) with
    | .ok r => answer r.answers
    | .error st =>
      if st ≠ notYet then
        qpError n st p.psn.toNat
        nak p q.die st
  else if p.op = 0x05 then
    match q.results.find? (fun x => decide (x.1 = p.psn.toNat)) with
    | some x => answer [{ backPkt p 0x06 3 with aux := p.psn, opnd0 := x.2 }]
    | none => pure ()
  else sendAck n

/-- A packet of a cached queue pair takes its place in the order (R538 to R540, R568). -/
def inOrder (n : Nat) (p : Packet) : Act Unit := do
  touch n ((((← get).qp n).map (·.die)).getD 0)
  let b ← get
  match b.qp n with
  | none => nak p 0 1
  | some q =>
    if q.err.isSome then nak p q.die 1
    else
      let d := diff32 p.psn.toNat q.epsn
      if d < 0 then duplicate n q p
      else if d = 0 then
        if ← takeOne n p then drainGo 256 n
      else if b.xpt.pool.any (fun x => decide (x.1 = n ∧ x.2.psn = p.psn)) then pure ()
      else if d ≤ 255 ∧ (b.xpt.pool.filter (fun x => decide (((b.qp x.1).map (·.die)).getD 0 = q.die))).length < 512 then
        set { b with xpt := { b.xpt with pool := b.xpt.pool ++ [(n, p)] } }
        sendAck n
      else xptCount q.die 3

/-- R549 check 2 against the words of a queue pair. -/
def QpSt.matches (q : QpSt) (p : Packet) : Bool :=
  decide (q.part = p.dstPart.toNat ∧ q.peerPkg = p.srcPkg.toNat ∧ q.peerPart = p.srcPart.toNat ∧ q.peerQp = p.srcQp.toNat)

/-- CONTEXT_MISS (R534, R535): the packet waits for its context, or is answered RNR. -/
def ctxMiss (n d : Nat) (p : Packet) : Act Unit := do
  let b ← get
  if (b.xpt.miss.filter (fun x => decide (((b.qp x.1).map (·.die)).getD 0 = d))).length < 64 then
    set { b with xpt := { b.xpt with miss := b.xpt.miss ++ [(n, p)] } }
    xptCount d 0
    startFetch n
  else rnr p d

/-- A request packet for this package (R534, R549 checks 1 to 3). -/
def requestIn (d0 : Nat) (p : Packet) : Act Unit := do
  let b ← get
  let n := p.dstQp.toNat
  if b.pkgNo.isNone then nak p d0 2
  else
    match b.qp n with
    | some q =>
      if !b.cached n q.die then ctxMiss n q.die p
      else if !q.matches p then nak p q.die 2
      else inOrder n p
    | none =>
      match ← attempt (readWords (b.ctxAddr n) 9) with
      | .ok ws =>
        let q := qpOf ws
        nak p q.die (if bits (nth ws 0 0) 63 62 = 2 ∧ q.matches p then 1 else 2)
      | .error _ => nak p d0 2

/-! ### Taking packets -/

/-- The packet leaves the place where it waits: a port's receive buffer, or the package's own loop (R488, R556); answers
the die of its lane. -/
def takeIn (p : Packet) : Act Nat := do
  let b ← get
  match (List.range 49).find? (fun n => (b.port n).rx.any (fun x => decide (x.pkt = p))) with
  | some n =>
    match (b.port n).rx.find? (fun x => decide (x.pkt = p)) with
    | some x => modPort n (fun y => { y with rx := y.rx.erase x })
    | none => pure ()
    pure (laneDie n)
  | none =>
    set { b with xpt := { b.xpt with loop := b.xpt.loop.erase p } }
    pure 0

/-- A packet of one of the given opcodes for this package; a bad version is dropped (R524). -/
def packetIn (ops : List (BitVec 8)) (p : Packet) (f : Nat → Act Unit) : Act Unit := do
  if ops.contains p.op && (← get).pkgNo.all (fun me => decide (p.dstPkg.toNat = me)) then
    let d ← takeIn p
    if p.version ≠ 1 then xptCount d 9
    else f d
    colSettle

def request (ops : List (BitVec 8)) (p : Packet) : Act Unit := packetIn ops p (fun d => requestIn d p)

/-- CRAGIL_WRITE (R538, R557). -/
def execCragilWrite (p : Packet) (s : State) : Host.Outcome State Fault Refusal := s.act (request [0x01] p)
/-- CRAGIL_WRITE_SIGNAL (R558). -/
def execCragilWriteSignal (p : Packet) (s : State) : Host.Outcome State Fault Refusal := s.act (request [0x02] p)
/-- CRAGIL_READ_REQUEST (R559). -/
def execCragilReadRequest (p : Packet) (s : State) : Host.Outcome State Fault Refusal := s.act (request [0x03] p)
/-- CRAGIL_ATOMIC (R561). -/
def execCragilAtomic (p : Packet) (s : State) : Host.Outcome State Fault Refusal := s.act (request [0x05] p)
/-- CRAGIL_TILE_ADD (R562). -/
def execCragilTileAdd (p : Packet) (s : State) : Host.Outcome State Fault Refusal := s.act (request [0x07] p)
/-- COL_GRANT (R591). -/
def execColGrant (p : Packet) (s : State) : Host.Outcome State Fault Refusal := s.act (request [0x31] p)
/-- COL_PDONE (R593). -/
def execColPdone (p : Packet) (s : State) : Host.Outcome State Fault Refusal := s.act (request [0x3B] p)
/-- COL_MIRROR_WRITE (R595). -/
def execColMirrorWrite (p : Packet) (s : State) : Host.Outcome State Fault Refusal := s.act (request [0x38] p)
/-- COL_MIRROR_ACK (R595). -/
def execColMirrorAck (p : Packet) (s : State) : Host.Outcome State Fault Refusal := s.act (request [0x39] p)
/-- COL_LOSS_NOTICE (R601, R602). -/
def execColLossNotice (p : Packet) (s : State) : Host.Outcome State Fault Refusal := s.act (request [0x34] p)

/-- TILE_ARRIVAL also lets the engine of a collective see what arrived (R583, R587). -/
def execTileArrival (a : Arrival) (s : State) : Host.Outcome State Fault Refusal :=
  s.act (do
    tileArrival a
    colSettle)

end Sys2Proof.Machine
end

