-- ==== Sys2Proof/Machine/Answers.lean ====
section
/-! DEFINITION. What a requester does with answers, and the transport's timers (11_one_memory_space.md R536 to R545, R559 to
R568, R571, R572). -/
namespace Sys2Proof.Machine

/-- An answer for this package: its queue pair is open, active and the one that the answer names (R567: later answers are
dropped). -/
def answerIn (ops : List (BitVec 8)) (p : Packet) (f : Nat → QpSt → Act Unit) : Act Unit :=
  packetIn ops p (fun _ => do
    let n := p.dstQp.toNat
    match (← get).qp n with
    | some q => if q.err.isNone && q.matches p then f n q else pure ()
    | none => pure ())

/-- The packet that an answer names, and its command. -/
def QpSt.named (q : QpSt) (psn : Nat) : Option SentPkt := (q.sent ++ q.waiting).find? (fun s => decide (s.pkt.psn.toNat = psn))
def QpSt.cmd (q : QpSt) (id : Nat) : Option RemCmd := q.cmds.find? (fun c => decide (c.comp.id = id))

/-- CRAGIL_ACK (R541, R542). -/
def execCragilAck (p : Packet) (s : State) : Host.Outcome State Fault Refusal :=
  s.act (answerIn [0x10] p (fun n _ => ackIn n p.psn.toNat p.opnd0))

/-- Is the refusal one that leaves the queue pair active: a tile add (R563), or a packet of the engines of 12? -/
def softRefusal (op : BitVec 8) (st : Nat) : Bool := (decide (op = 0x07) && decide (st = 0x0A ∨ st = 0x0B)) || engineOp op

/-- LATE_TILE_REFUSED and R563: a refused tile of a command, or of a contribution. -/
def RemCmd.refuse (c : RemCmd) (st : Nat) : RemCmd :=
  match c.kind with
  | .contrib _ _ => if st = 0x0B then { c with refused := c.refused + 1 } else c.fail st
  | .rtadd => { c.fail st with moved := c.moved - 1 }
  | _ => c.fail st

/-- CRAGIL_NAK (R551, R563, R567, R588, R596, R607). -/
def nakIn (n : Nat) (q : QpSt) (p : Packet) : Act Unit := do
  let st := p.status.toNat
  match q.named p.psn.toNat with
  | none => pure ()
  | some s =>
    if softRefusal s.pkt.op st then
      ackedTo n p.psn.toNat
      modCmd n s.cmd (·.refuse st)
      if s.pkt.op = 0x38 then mirrorFail s.pkt.aux.toNat
      retire n
      advance n
    else
      qpError n st p.psn.toNat
      if st = 4 then staleNak n

def execCragilNak (p : Packet) (s : State) : Host.Outcome State Fault Refusal := s.act (answerIn [0x11] p (fun n q => nakIn n q p))

/-- Is it a request of queue pair `n` of this package at or after a PSN? -/
def Blk.heldBy (b : Blk) (n psn : Nat) (p : Packet) : Bool :=
  decide (p.srcQp.toNat = n) && decide (b.pkgNo = some p.srcPkg.toNat) && decide (0 ≤ diff32 p.psn.toNat psn) &&
    (decide (p.op.toNat ≤ 0x07 ∧ p.op ≠ 0x04 ∧ p.op ≠ 0x06) || engineOp p.op || decide (p.op = Config.stageOp))

/-- CRAGIL_RNR (R544): nothing at or after the PSN leaves for the back-off. -/
def rnrIn (n : Nat) (q : QpSt) (p : Packet) : Act Unit := do
  xptCount q.die 2
  let psn := p.psn.toNat
  if q.sent.any (fun s => decide (s.pkt.psn.toNat = psn)) then
    let psn := match q.rnr with
      | some r => if diff32 r psn ≤ 0 then r else psn
      | none => psn
    modQp n (fun q => { q with rnr := some psn })
    modify (fun b =>
      let ports := b.link.ports.map (fun kp => (kp.1, { kp.2 with txq := kp.2.txq.filter (fun f => match f.kind with
        | .pkt x _ => !b.heldBy n psn x
        | _ => true) }))
      { b with
        link := { b.link with ports := ports.filter (fun kp => decide (kp.2 ≠ {})) },
        xpt := { b.xpt with out := b.xpt.out.filter (fun o => !b.heldBy n psn o.pkt) } })

def execCragilRnr (p : Packet) (s : State) : Host.Outcome State Fault Refusal := s.act (answerIn [0x12] p (fun n q => rnrIn n q p))

/-- RNR_BACKOFF_EXPIRY (R544): the sender resends from the PSN refused. -/
def rnrBackoffExpiry (n : Nat) : Act Unit := do
  match (← get).qp n with
  | none => pure ()
  | some q =>
    match q.rnr with
    | none => pure ()
    | some r =>
      modQp n (fun q => { q with rnr := none })
      (q.sent.filter (fun s => decide (0 ≤ diff32 s.pkt.psn.toNat r))).forM (resend n)
      advance n

def execRnrBackoffExpiry (qp : BitVec 16) (s : State) : Host.Outcome State Fault Refusal := s.act (rnrBackoffExpiry qp.toNat)

/-! ### Responses -/

/-- A member's address as the completion of a remote command of die `d` writes it. -/
def localPiece (d part va : Nat) (p : Perm) (n : Nat := 8192) : Act (Nat × Region) := do
  let pa ← translate part va p
  let (a, r) ← engineAddr ⟨some d⟩ pa
  need (p != .wr || !(← get).pinned a n) 0x02
  pure (a, r)

/-- Write one part of a read at its local destination (R371, R559, R564): answers the status it gives the command. -/
def putPart (c : RemCmd) (fr : Bool) (dst : Nat) (x : ReadPart) : Act Nat :=
  if x.status ≠ 0 then pure x.status
  else Act.status (do
    if fr then
      let (a, r) ← localPiece c.die c.comp.part (dst + x.off) .wr
      let f := x.frame.getD {}
      writeFrameAt a r { f with hdr := { f.hdr with poison := f.hdr.poison || x.poison } }
    else
      let ps ← (piecesOf (dst + x.off) x.bytes.length).mapM (fun q => do
        let (a, r) ← localPiece c.die c.comp.part q.1 .wr q.2
        pure (a, r, q.2))
      if x.poison then
        ps.forM (fun q => poisonFrame q.1)
        throw 5
      let _ ← ps.foldlM (fun rest q => do
        writeLinesAt q.1 q.2.1 (rest.take q.2.2)
        if q.2.1 = .ddr then modify (·.devTouch c.die q.1 q.2.2)
        pure (rest.drop q.2.2)) x.bytes)

/-- The bytes of a read that are still to come: up to its end, or up to its lowest bad part. -/
def readLeft (total : Nat) (stop : Option Nat) (got : List (Nat × Nat)) : Nat :=
  let e := stop.getD total
  e - ((got.filter (fun g => decide (g.1 < e))).map (·.2)).sum

/-- The part that a READ response carries. -/
def partOf (p : Packet) : ReadPart :=
  { off := p.opnd0.toNat, frame := p.frame, bytes := p.bytes, poison := p.poison, status := p.status.toNat }

/-- CRAGIL_READ_RESPONSE (R559, R563, R564). -/
def readIn (n : Nat) (q : QpSt) (p : Packet) : Act Unit := do
  match q.named p.aux.toNat with
  | none => pure ()
  | some s =>
    match q.cmd s.cmd with
    | none => pure ()
    | some c =>
      let x := partOf p
      if c.want = 0 ∨ c.got.any (fun g => decide (g.1 = x.off)) then pure ()
      else
        let len := if x.frame.isSome then 8192 else x.bytes.length
        let (st, total, unit) ← match c.kind with
          | .read fr dst tot => do
            let st ← if c.stopAt.any (fun o => decide (o ≤ x.off)) then pure 0 else putPart c fr dst x
            pure (st, tot, if st = 0 then (if fr then 1 else len) else 0)
          | .aper _ size =>
            if x.status = 0 then modify (fun b => { b with host := { b.host with resp := x.bytes.take size, accessFault := false } })
            pure (x.status, size, 0)
          | _ => pure (x.status, 0, 0)
        let got := c.got ++ [(x.off, len)]
        let stop := if st = 0 then c.stopAt else match c.stopAt with
          | some o => some (min o x.off)
          | none => some x.off
        modCmd n s.cmd (fun c => {
          (if st = 0 then c else c.fail st) with got := got, stopAt := stop, want := readLeft total stop got, moved := c.moved + unit })
        if readLeft total stop got = 0 then modQp n (fun q => { q with waiting := q.waiting.filter (fun t => decide (t.cmd ≠ s.cmd)) })
        retire n

def execCragilReadResponse (p : Packet) (s : State) : Host.Outcome State Fault Refusal := s.act (answerIn [0x04] p (fun n q => readIn n q p))

/-- CRAGIL_ATOMIC_RESPONSE (R560, R563, R572): the old value is written as eight bytes. -/
def atomicIn (n : Nat) (q : QpSt) (p : Packet) : Act Unit := do
  match q.named p.aux.toNat with
  | none => pure ()
  | some s =>
    match q.cmd s.cmd with
    | none => pure ()
    | some c =>
      if c.want = 0 then pure ()
      else
        let st ← if p.status ≠ 0 then pure p.status.toNat
          else match c.kind with
            | .atomic (some ret) _ => Act.status (vwrite ⟨some c.die⟩ c.comp.part ret (natLe 8 p.opnd0.toNat))
            | .aper _ size => do
              modify (fun b => { b with host := { b.host with resp := natLe size p.opnd0.toNat, accessFault := false } })
              pure 0
            | _ => pure 0
        modCmd n s.cmd (fun c => { (if st = 0 then c else c.fail st) with want := 0 })
        modQp n (fun q => { q with waiting := q.waiting.filter (fun t => decide (t.cmd ≠ s.cmd)) })
        retire n

def execCragilAtomicResponse (p : Packet) (s : State) : Host.Outcome State Fault Refusal :=
  s.act (answerIn [0x06] p (fun n q => atomicIn n q p))

/-! ### Timers and contexts -/

/-- ACK_TIMER_EXPIRY (R541). -/
def execAckTimerExpiry (qp : BitVec 16) (s : State) : Host.Outcome State Fault Refusal :=
  s.act (do
    match (← get).qp qp.toNat with
    | some q => if q.err.isNone ∧ q.unacked ≠ 0 then sendAck qp.toNat else pure ()
    | none => pure ())

/-- RTO_EXPIRY (R542, R543): unmarked packets, and requests that wait for their response (R559), are sent again. -/
def rtoExpiry (n : Nat) : Act Unit := do
  let b ← get
  match b.qp n with
  | none => pure ()
  | some q =>
    if q.err.isSome ∨ q.rnr.isSome ∨ (q.sent.isEmpty ∧ q.waiting.isEmpty) then pure ()
    else
      xptCount q.die 6
      modQp n (fun q => { q with retry := q.retry + 1 })
      if b.fld Reg.xptCtrl 39 36 < q.retry + 1 then
        qpError n 0x0D (match q.sent ++ q.waiting with
          | s :: _ => s.pkt.psn.toNat
          | [] => q.una)
      else
        (q.waiting ++ q.sent.filter (fun s => !s.sacked)).forM (resend n)
        kick
  colSettle

def execRtoExpiry (qp : BitVec 16) (s : State) : Host.Outcome State Fault Refusal := s.act (rtoExpiry qp.toNat)

/-- Put a packet into a list in PSN order. -/
def byPsn (p : Packet) : List Packet → List Packet
  | [] => [p]
  | x :: r => if diff32 p.psn.toNat x.psn.toNat ≤ 0 then p :: x :: r else x :: byPsn p r

/-- CONTEXT_FETCH_COMPLETE (R532 to R534): the context is cached if there is room; the packets that waited are taken in PSN
order. -/
def contextFetchComplete (n : Nat) : Act Unit := do
  let b ← get
  if b.xpt.fetching.contains n then
    match b.qp n with
    | none =>
      let l := (b.xpt.miss.filter (fun x => decide (x.1 = n))).map (·.2)
      set { b with xpt := { b.xpt with fetching := b.xpt.fetching.erase n, miss := b.xpt.miss.filter (fun x => decide (x.1 ≠ n)) } }
      l.forM (requestIn 0)
    | some q =>
      let room ← if b.cached n q.die then pure true else makeRoom q.die
      if room then
        modify (fun b => { b with xpt := { b.xpt with fetching := b.xpt.fetching.erase n } })
        modify (fun b => if b.cached n q.die then b else b.setCache q.die (b.cacheOf q.die ++ [n]))
        let b ← get
        let l := (b.xpt.miss.filter (fun x => decide (x.1 = n))).map (·.2)
        set { b with xpt := { b.xpt with miss := b.xpt.miss.filter (fun x => decide (x.1 ≠ n)) } }
        let l := l.foldr byPsn []
        l.forM (requestIn q.die)
  colSettle

def execContextFetchComplete (qp : BitVec 16) (s : State) : Host.Outcome State Fault Refusal := s.act (contextFetchComplete qp.toNat)

/-! ### Queue-pair commands (R530) -/

/-- One XPT_QP_CMD: RESULT and CONTEXT in XPT_QP_STS; from partition 0 and the control cores only (R573). -/
def qpCommand (n : Nat) (body : Act Unit) : Act Unit := do
  if !bit ((← get).reg Reg.xptQpSts) 63 then
    let st ← Act.status body
    setReg Reg.xptQpSts (word (st <<< 48 ||| n))
    colSettle

/-- QP_OPEN (R530, R618). -/
def qpOpen (n : Nat) : Act Unit := do
  let b ← get
  need (b.qp n).isNone 0x0A
  let ws ← readWords (b.ctxAddr n) 9
  let q := qpOf ws
  need (decide (bits (nth ws 0 0) 63 58 = 0x20) && b.pkgNo.isSome &&
    !(decide (b.pkgNo = some q.peerPkg) && decide (q.peerPart = q.part))) 0x0A
  need (b.partOn q.part) 0x02
  modify (·.setQp n (some q))
  saveQp n 1 q

/-- QP_CLOSE (R530, R567): everything it holds is flushed with status 0x01. -/
def qpClose (n : Nat) : Act Unit := do
  let b ← get
  match b.qp n with
  | none =>
    let _ ← readWords (b.ctxAddr n) 1
    throw 0x0A
  | some _ =>
    set (b.dropFrames n)
    flushCmds n 1 none
    match (← get).qp n with
    | some q =>
      saveQp n 0 q
      let d := q.die
      modify (fun b => ((b.setQp n none).setCache d ((b.cacheOf d).filter (fun x => decide (x ≠ n)))))
    | none => pure ()

/-- XPT_QP_CMD ERROR (R530). -/
def qpErrorCmd (n : Nat) : Act Unit := do
  let b ← get
  match b.qp n with
  | none =>
    let _ ← readWords (b.ctxAddr n) 1
    throw 0x0A
  | some q =>
    need q.err.isNone 0x0A
    qpError n 1 q.una

/-- The word that XPT_QP_CMD takes. -/
def qpCmdWord (cmd n : Nat) : Word := word (cmd <<< 60 ||| n)

def execQpOpen (src : Src) (qp : BitVec 16) (s : State) : Host.Outcome State Fault Refusal :=
  s.regw src Reg.xptQpCmd (qpCmdWord 1 qp.toNat) (qpCommand qp.toNat (qpOpen qp.toNat))
def execQpClose (src : Src) (qp : BitVec 16) (s : State) : Host.Outcome State Fault Refusal :=
  s.regw src Reg.xptQpCmd (qpCmdWord 2 qp.toNat) (qpCommand qp.toNat (qpClose qp.toNat))
def execQpErrorCmd (src : Src) (qp : BitVec 16) (s : State) : Host.Outcome State Fault Refusal :=
  s.regw src Reg.xptQpCmd (qpCmdWord 3 qp.toNat) (qpCommand qp.toNat (qpErrorCmd qp.toNat))

/-! ### Keys and windows (R546 to R550) -/

/-- Write back the package's words of a window entry, in the table and in every cached copy. -/
def putWin (p w : Nat) (valid : Bool) (ws : List Word) : Act Unit := do
  let a := (← get).winAddr p w
  let w0 := setBit (nth ws 0 0) 63 valid
  let w3 := setBit (nth ws 0 3) 63 (!valid)
  tableWrite 6 a w0 (p * 256 + w)
  tableWrite 6 (a + 0x18) w3 (p * 256 + w)
  modify (fun b => { b with xpt := { b.xpt with wins := sset [] b.xpt.wins (p * 256 + w) [w0, nth ws 0 1, nth ws 0 2, w3] } })

/-- XPT_WIN_STS of a command. -/
def winSts (busy : Bool) (st p w : Nat) : Word := word (b2n busy <<< 63 ||| st <<< 48 ||| p <<< 16 ||| w)

/-- WIN_LOAD (R548). -/
def winLoad (p w : Nat) : Act Unit := do
  if !bit ((← get).reg Reg.xptWinSts) 63 then
    let st ← Act.status (do
      let ws ← readWords ((← get).winAddr p w) 4
      need (bits (nth ws 0 1) 41 0 ≤ bits (nth ws 0 2) 41 0) 0x0A
      putWin p w true ws)
    setReg Reg.xptWinSts (winSts false st p w)

/-- WIN_REVOKE (R548, R550): BUSY stays until the revocation completes. -/
def winRevoke (p w : Nat) : Act Unit := do
  if !bit ((← get).reg Reg.xptWinSts) 63 then
    let st ← Act.status (do
      let ws ← readWords ((← get).winAddr p w) 4
      putWin p w false ws)
    if st = 0 then
      modify (fun b => { b with xpt := { b.xpt with revoking := some (p, w) } })
      setReg Reg.xptWinSts (winSts true (bits ((← get).reg Reg.xptWinSts) 55 48) p w)
    else setReg Reg.xptWinSts (winSts false st p w)

def execWinLoad (src : Src) (part : BitVec 10) (win : BitVec 8) (s : State) : Host.Outcome State Fault Refusal :=
  s.regw src Reg.xptWinCmd (word (1 <<< 60 ||| part.toNat <<< 48 ||| win.toNat)) (winLoad part.toNat win.toNat)
def execWinRevoke (src : Src) (part : BitVec 10) (win : BitVec 8) (s : State) : Host.Outcome State Fault Refusal :=
  s.regw src Reg.xptWinCmd (word (2 <<< 60 ||| part.toNat <<< 48 ||| win.toNat)) (winRevoke part.toNat win.toNat)

/-- REVOKE_COMPLETE (R550): every write that passed its check has reached memory, as each does when it is taken here. -/
def execRevokeComplete (s : State) : Host.Outcome State Fault Refusal :=
  s.act (do
    match (← get).xpt.revoking with
    | none => pure ()
    | some (p, w) =>
      modify (fun b => { b with xpt := { b.xpt with revoking := none } })
      if w < 256 then setReg Reg.xptWinSts (winSts false 0 p w)
      else setFld Reg.xptWinSts 63 63 0)

/-- XPT_PKEY_WRITE (R546, R550): a changed key advances GEN and is a revocation point of every window of the partition. -/
def xptPkeyWrite (p : Nat) (v : Word) : Act Unit := do
  let b ← get
  let k := b.reg (Reg.xptPkey p)
  if decide (bits v 47 0 ≠ bits k 47 0) then
    setReg (Reg.xptPkey p) (word (((bits k 63 48 + 1) % 2 ^ 16) <<< 48 ||| bits v 47 0))
    if b.xpt.revoking.isNone then
      modify (fun b => { b with xpt := { b.xpt with revoking := some (p, 256) } })
      setFld Reg.xptWinSts 63 63 1

def execXptPkeyWrite (src : Src) (part : BitVec 10) (v : Word) (s : State) : Host.Outcome State Fault Refusal :=
  s.regw src (Reg.xptPkey part.toNat) v (xptPkeyWrite part.toNat v)

/-! ### Transit (R526, R527) -/

/-- The bytes of a die's 4 MiB transit buffer in use: packets held for a lane, and those in transmit queues. -/
def Blk.transitUsed (b : Blk) (d : Nat) : Nat :=
  ((b.xpt.out.filter (fun o => decide (o.transit = some d))).map (fun o => 64 + (pktPayload o.pkt).length)).sum +
  (b.link.ports.flatMap (fun kp => kp.2.txq.map (fun f => match f.kind with
    | .pkt p (some t) => if t = d then 64 + (pktPayload p).length else 0
    | _ => 0))).sum

/-- TRANSIT_FORWARD (R526): a packet for another package leaves on its link with TTL one lower, or is dropped. -/
def transitForward (d : Nat) (p : Packet) : Act Unit := do
  let b ← get
  match b.pkgNo with
  | none => pure ()
  | some me =>
    if p.dstPkg.toNat = me then pure ()
    else
      let _ ← takeIn p
      let q := { p with ttl := p.ttl - 1 }
      let r := b.route p.dstPkg.toNat
      if p.ttl.toNat ≤ 1 ∨ r.isNone ∨ r = some 0xA ∨ 4194304 < b.transitUsed d + 64 + (pktPayload p).length then xptCount d 4
      else
        outPkt q (some d)
        kick

def execTransitForward (die : Fin 2) (p : Packet) (s : State) : Host.Outcome State Fault Refusal := s.act (transitForward die.val p)

end Sys2Proof.Machine
end

