-- ==== Sys2Proof/Machine/Remote.lean ====
section
/-! DEFINITION. Remote operations of members and of host cores (11_one_memory_space.md R553 to R566, R569 to R572). -/
namespace Sys2Proof.Machine

/-! ### The instruction's fields (R553, R554) -/

/-- What every remote operation names: the flag, signal, NOFAULT and RSIG bits. -/
structure RemBits where
  flag : Bool
  sig : Bool
  nofault : Bool
  rsig : Bool
deriving DecidableEq, Repr

/-- R554: the extension word. -/
def remExtOk (x : Word) (f : RemBits) : Bool :=
  decide (bits x 4 0 = 0) && (f.rsig || decide (bits x 49 20 = 0)) && (f.flag || decide (bits x 19 10 = 0))

/-- A global address (R51): package, partition, offset. -/
def gPkg (g : Word) : Nat := bits g 63 52
def gPart (g : Word) : Nat := bits g 51 42
def gOff (g : Word) : Nat := bits g 41 0

/-- R52, R556: is the address served in the issuing partition itself? -/
def Blk.gLocal (b : Blk) (part : Nat) (g : Word) : Bool := decide (b.pkgNo = some (gPkg g)) && decide (gPart g = part)

/-- R332, R554, R786: what happens at completion. -/
def remComp (c : Cx) (x : Word) (f : RemBits) (id : Nat) : Act Comp :=
  compOf c x f.flag f.sig f.nofault id

/-- The queue pair that an operation names (R555). -/
def remQp (c : Cx) (w : Word) (g : Word) : Act Nat := do
  let b ← get
  let n := (b.sreg c.key (bits w 19 15)).toNat % 65536
  match b.qp n with
  | some q =>
    need (q.err.isNone && decide (q.part = c.part ∧ q.peerPkg = gPkg g ∧ q.peerPart = gPart g)) 0x02
    pure n
  | none => throw 0x02

/-- The commands of members that a die holds (R565). -/
def Blk.remHeld (b : Blk) (d : Nat) : Nat :=
  (b.xpt.qps.map (fun nq => match nq.2 with
    | some q => (q.cmds.filter (fun c => decide (c.die = d) && (match c.kind with
        | .write => true
        | .rtadd => true
        | .read _ _ _ => true
        | .atomic _ _ => true
        | _ => false))).length
    | none => 0)).sum

/-- R533, R565: room for one more command, and its context cached; else the member waits. -/
def remRoom (c : Cx) (n : Nat) : Act Unit := do
  let b ← get
  if 1024 ≤ b.remHeld c.die then throw notYet
  let d := ((b.qp n).map (·.die)).getD 0
  if !b.cached n d then
    startFetch n
    throw notYet

/-- A local address of a remote operation: translated and reachable (R40, R48, R163). -/
def remLocal (c : Cx) (va : Nat) (p : Perm) (n : Nat := 8192) : Act (Nat × Region) := do
  let pa ← translate c.part va p
  let b ← get
  let pa' := if p = .rd then (b.slot c.key).redirect pa else pa
  let (a, r) := b.resolve pa'
  need ((r.isTier || r.isStore) && b.shareAt c.bf a r && (p != .wr || (decide ((b.slot c.key).redirect pa = pa) && !b.pinned a n))) 0x02
  pure (a, r)

/-- Every piece of a local range. -/
def remRange (c : Cx) (va n : Nat) (p : Perm) : Act (List (Nat × Region × Nat)) :=
  (piecesOf va n).mapM (fun q => do
    let (a, r) ← remLocal c q.1 p q.2
    pure (a, r, q.2))

/-! ### Service inside the partition (R52, R556) -/

/-- One packet of an operation that names the issuing partition: no key and no window; ROBJ must be the partition's. -/
def serveLocal (c : Cx) (p : Packet) : Act Served := do
  let p := { p with dstPart := BitVec.ofNat 10 c.part }
  if givesSignal p then need ((← get).ownsSync c.part (bits p.opnd1 63 50)) 0x02
  let r ← if p.op = 0x03 then serveRead c.die p
    else if p.op = 0x05 then serveAtomic c.die p
    else if p.op = 0x07 then serveTile c.die p
    else serveWrite c.die p
  if givesSignal p && decide (r.status = 0) then giveSignal c.part (bits p.opnd1 63 50) (word (bits p.opnd1 31 0))
  pure r

/-- The packets of a local operation one after another, until one fails: the status, the frames or bytes moved. -/
def localGo (c : Cx) (rc : RemCmd) : List Packet → Act (Nat × Nat)
  | [] => pure (0, 0)
  | p :: r => do
    match ← attempt (serveLocal c p) with
    | .error st => if st = notYet then throw notYet else pure (st, 0)
    | .ok v =>
      if v.status ≠ 0 then pure (v.status, 0)
      else
        let st ← match rc.kind with
          | .read fr dst _ => do
            let l ← v.answers.foldlM (fun (acc : Nat × Nat) x => do
              if acc.1 ≠ 0 then pure acc
              else
                let y := partOf x
                let st ← putPart rc fr dst y
                pure (st, if st = 0 then acc.2 + (if fr then 1 else y.bytes.length) else acc.2)) (0, 0)
            pure l
          | .atomic (some ret) _ => do
            let x := v.answers.headD {}
            if x.status ≠ 0 then pure (x.status.toNat, 0)
            else pure ((← Act.status (vwrite ⟨some c.die⟩ c.part ret (natLe 8 x.opnd0.toNat))), 0)
          | .atomic none _ => pure ((v.answers.headD {}).status.toNat, 0)
          | k => pure (0, k.unit p)
        if st.1 ≠ 0 then pure st
        else
          let t ← localGo c rc r
          pure (t.1, t.2 + st.2)

/-- R332: a flag or signal of a local operation waits for the member's earlier writes in its direction: the member waits
(log entry 40). -/
def localWait (c : Cx) (comp : Comp) (g : Word) : Act Unit := do
  if comp.flag.isSome || comp.sig.isSome then
    let r ← attempt (translate c.part (gOff g) .rd)
    let b ← get
    let dir := match r with
      | .ok pa => (b.resolve pa).2.dir
      | .error _ => 0
    if b.earlierWrites ⟨comp, .copyi [], 0, dir⟩ then throw notYet

/-- Issue one remote operation: serve it inside the partition, or put it on its queue pair. -/
def remIssueOn (qp : Act Nat) (c : Cx) (x : Word) (f : RemBits) (g : Word) (kind : RemKind) (want : Nat)
    (body : Act (List (Packet × Option Nat) × Nat)) : Act Unit := do
  let b ← get
  let loc := b.gLocal c.part g
  let n ← if loc then pure 0 else qp
  let comp ← remComp c x f b.nextId
  if loc then localWait c comp g else remRoom c n
  let (ps, st) ← body
  let ms := marks (ps.map (·.1))
  let ms := ms.map (fun p => if p.last ∧ f.rsig then { p with opnd1 := word (bits x 49 36 <<< 50 ||| bits x 35 20) } else p)
  let rc : RemCmd := { comp := comp, kind := kind, die := c.die, left := 0, want := if ps.isEmpty then 0 else want, status := st }
  let _ ← begin' c.key c.ctx .remote
  if loc then
    let (st', moved) ← localGo c rc ms
    completeCmd comp c.die (if st' = 0 then st else st') moved
  else postCmd n rc (List.zipWith (fun m p => (m, p.2)) ms ps)

/-- The same on the queue pair that the instruction names (R555). -/
def remIssue (c : Cx) (w x : Word) (f : RemBits) (g : Word) (kind : RemKind) (want : Nat)
    (body : Act (List (Packet × Option Nat) × Nat)) : Act Unit := remIssueOn (remQp c w g) c x f g kind want body

/-! ### The five operations -/

/-- The frames of a source range as packets, until one is bad (R371, R564). -/
def srcFrames (c : Cx) (g : Word) (stride : Nat) (p : Packet) (l : List (Nat × Region)) : Act (List (Packet × Option Nat) × Nat) := do
  let (ps, st, _) ← l.foldlM (fun (acc : List (Packet × Option Nat) × Nat × Nat) x => do
    let (ps, st, i) := acc
    if st ≠ 0 then pure acc
    else if x.2 = .ddr ∧ (← get).linkDown c.die then pure (ps, 0x0E, i)
    else
      let (f, s) ← readFrameAt x.1 x.2
      if s = 6 then pure (ps, 6, i)
      else pure (ps ++ [({ p with len := 8768, frame := some { f with hdr := { f.hdr with poison := decide (s ≠ 0) } },
                                  poison := decide (s ≠ 0), addr := g + word (stride * i) }, some x.1)], 0, i + 1)) ([], 0, 0)
  pure (ps, st)

/-- The bytes of a source range as packets; poisoned bytes are the last (R371, R564). -/
def srcBytes (c : Cx) (g : Word) (va n : Nat) (p : Packet) : Act (List (Packet × Option Nat) × Nat) := do
  let l ← (copyPieces (2 * (n / 8192) + 4) va (gOff g) n).mapM (fun q => do
    let (a, r) ← remLocal c q.1 .rd
    pure (a, r, q.1 - va, q.2.2))
  l.foldlM (fun (acc : List (Packet × Option Nat) × Nat) x => do
    if acc.2 ≠ 0 then pure acc
    else if x.2.1 = .ddr ∧ (← get).linkDown c.die then pure (acc.1, 0x0E)
    else
      let (bs, s) ← readLinesAt x.1 x.2.2.2 x.2.1
      if s = 6 then pure (acc.1, 6)
      else pure (acc.1 ++ [({ p with len := BitVec.ofNat 16 x.2.2.2, bytes := bs, poison := decide (s ≠ 0),
                                     addr := g + word x.2.2.1 }, some x.1)], s)) ([], 0)

/-- XFER.RWRITE (R557). -/
def xferRwrite (w x : Word) (c : Cx) : Act Unit := do
  let b ← get
  let f : RemBits := ⟨bit w 46, bit w 45, bit w 44, bit w 43⟩
  let g := b.sreg c.key (bits w 4 0)
  let va := (b.sreg c.key (bits w 9 5)).toNat
  let n := (b.sreg c.key (bits w 14 10)).toNat
  let fr := bit w 47
  let al := if fr then 8192 else 64
  need (remExtOk x f && decide (gOff g % al = 0) && decide (va % al = 0) && (fr || decide (n % 64 = 0))) 0x0A
  let src ← remRange c va (if fr then n * 8192 else n) .rd
  let p : Packet := { op := if f.rsig then 0x02 else 0x01, cls := if f.rsig then 3 else 4 }
  remIssue c w x f g .write 0 (if fr then srcFrames c g 8192 p (src.map (fun q => (q.1, q.2.1))) else srcBytes c g va n p)

def execXferRwrite (m : Member) (w x : Word) (s : State) : Host.Outcome State Fault Refusal :=
  s.upd (issue m w 6 0x08 (wordOk w true (0, 0) &&
    rsvdOk w [(47, 47), (46, 46), (45, 45), (44, 44), (43, 43), (19, 15), (14, 10), (9, 5), (4, 0)]) (xferRwrite w x))

/-- XFER.RWRITEI (R557). -/
def xferRwritei (w x : Word) (pl : List Word) (c : Cx) : Act Unit := do
  let f : RemBits := ⟨bit w 46, bit w 45, bit w 44, bit w 43⟩
  let g := (← get).sreg c.key (bits w 4 0)
  let n := bits w 40 33 + 1
  need (remExtOk x f && decide (n ≤ 8 * bits w 52 48) && decide (gOff g % 8 = 0)) 0x0A
  let p : Packet := {
    op := if f.rsig then 0x02 else 0x01, cls := if f.rsig then 3 else 4, addr := g, len := BitVec.ofNat 16 n,
    bytes := (padTo (8 * bits w 52 48) (wordsBytes pl)).take n }
  remIssue c w x f g .write 0 (pure ([(p, none)], 0))

def execXferRwritei (m : Member) (w x : Word) (pl : List Word) (s : State) : Host.Outcome State Fault Refusal :=
  s.upd (issue m w 6 0x09 (wordOk w true (1, 24) &&
    rsvdOk w [(46, 46), (45, 45), (44, 44), (43, 43), (40, 33), (19, 15), (4, 0)]) (xferRwritei w x pl))

/-- XFER.RREAD (R559). -/
def xferRread (w x : Word) (c : Cx) : Act Unit := do
  let b ← get
  let f : RemBits := ⟨bit w 46, bit w 45, bit w 44, false⟩
  let g := b.sreg c.key (bits w 9 5)
  let va := (b.sreg c.key (bits w 4 0)).toNat
  let n := (b.sreg c.key (bits w 14 10)).toNat
  let fr := bit w 47
  let al := if fr then 8192 else 64
  need (remExtOk x f && decide (gOff g % al = 0) && decide (va % al = 0) && (fr || decide (n % 64 = 0))) 0x0A
  let len := if fr then n * 8192 else n
  let _ ← remRange c va len .wr
  let p : Packet := { op := 0x03, cls := 4, addr := g, opnd0 := word len, opnd1 := word (b2n fr) }
  remIssue c w x f g (.read fr va len) len (pure (if len = 0 then [] else [(p, none)], 0))

def execXferRread (m : Member) (w x : Word) (s : State) : Host.Outcome State Fault Refusal :=
  s.upd (issue m w 6 0x0A (wordOk w true (0, 0) &&
    rsvdOk w [(47, 47), (46, 46), (45, 45), (44, 44), (19, 15), (14, 10), (9, 5), (4, 0)]) (xferRread w x))

/-- XFER.RATOM (R560). -/
def xferRatom (w x : Word) (c : Cx) : Act Unit := do
  let b ← get
  let f : RemBits := ⟨false, bit w 45, bit w 44, false⟩
  let g := b.sreg c.key (bits w 4 0)
  let aop := bits w 47 46
  let t := bits w 42 40
  let ret := (b.sreg c.key (bits w 29 25)).toNat
  let back := decide (bits w 29 25 ≠ 0)
  need (remExtOk x f && atomOk aop t && decide (gOff g % atomSize t = 0) && (!back || decide (ret % 8 = 0))) 0x0A
  if back then let _ ← remRange c ret 8 .wr
  let p : Packet := {
    op := 0x05, cls := 3, addr := g, aux := BitVec.ofNat 32 (aop <<< 30 ||| t <<< 27),
    opnd0 := b.sreg c.key (bits w 14 10), opnd1 := b.sreg c.key (bits w 24 20) }
  remIssue c w x f g (.atomic (if back then some ret else none) (atomSize t)) 1 (pure ([(p, none)], 0))

def execXferRatom (m : Member) (w x : Word) (s : State) : Host.Outcome State Fault Refusal :=
  s.upd (issue m w 6 0x0B (wordOk w true (0, 0) &&
    rsvdOk w [(47, 46), (45, 45), (44, 44), (42, 40), (29, 25), (24, 20), (19, 15), (14, 10), (4, 0)]) (xferRatom w x))

/-- XFER.RTADD (R264, R288, R562). -/
def xferRtadd (w x : Word) (c : Cx) : Act Unit := do
  let b ← get
  let f : RemBits := ⟨bit w 39, bit w 38, bit w 37, bit w 36⟩
  let g := b.sreg c.key (bits w 4 0)
  let va := (b.sreg c.key (bits w 9 5)).toNat
  let n := bits w 35 28 + 1
  let tv := if bits w 24 20 = 0 then 0 else (b.sreg c.key (bits w 24 20)).toNat
  match Fmt.ofCode (bits w 47 44), Fmt.ofCode (bits w 43 40) with
  | some df, some sf =>
    need (remExtOk x f && addPair sf df && decide (gOff g % 8192 = 0) && decide (va % 8192 = 0)) 0x0A
    let src ← remRange c va (n * 8192) .rd
    src.forM (fun q => do
      if !(decide (q.2.1 = .ddr) && (← get).linkDown c.die) then
        let (fr, st) ← readFrameAt q.1 q.2.1
        need (decide (st ≠ 0) || headerIs fr.hdr sf) 0x0A)
    let p : Packet := { op := 0x07, cls := 3, aux := BitVec.ofNat 32 (df.code <<< 28 ||| sf.code <<< 24 ||| (tv / 65536 % 64) <<< 16 ||| tv % 65536) }
    remIssue c w x f g .rtadd 0 (srcFrames c g (if addTwo sf df then 16384 else 8192) p (src.map (fun q => (q.1, q.2.1))))
  | _, _ => throw 0x0A

def execXferRtadd (m : Member) (w x : Word) (s : State) : Host.Outcome State Fault Refusal :=
  s.upd (issue m w 6 0x0C (wordOk w true (0, 0) &&
    rsvdOk w [(47, 44), (43, 40), (39, 39), (38, 38), (37, 37), (36, 36), (35, 28), (24, 20), (19, 15), (9, 5), (4, 0)]) (xferRtadd w x))

/-! ### The host cores' aperture (R569 to R572) -/

/-- The slot and the global address of a host address (R569). -/
def aperTarget (b : Blk) (addr : Nat) : Nat × Word :=
  let j := (addr - 0x400000000000) / 2 ^ 40 % 64
  let e := b.reg (Reg.xptAper j)
  (j, word (bits e 55 44 <<< 52 ||| bits e 43 34 <<< 42 ||| bits e 33 32 <<< 40 ||| addr % 2 ^ 40))

/-- The host core's access ends in an access-fault exception (R570, R572). -/
def aperFault : Act Unit := modify (fun b => { b with host := { b.host with accessFault := true, resp := [] } })

/-- R572: a failed access records its status. -/
def aperErr (j st : Nat) : Act Unit := modify (fun b =>
  let w := b.reg (Reg.xptAperSts j)
  if bit w 63 then b else b.setReg (Reg.xptAperSts j) (setBit (setBits w 55 48 st) 63 true))

/-- R572: a store that fails records its status, and the slot's queue pair enters the error state (log entry 104). -/
def aperStoreErr (j n st : Nat) : Act Unit := do
  aperErr j st
  qpError n st ((((← get).qp n).map (·.spsn)).getD 0)

/-- One access of a host core through the aperture: `store` posts, the others wait for their answer. -/
def aperture (addr size : Nat) (store : Bool) (p : Packet) : Act Unit := do
  let b ← get
  let (j, g) := aperTarget b addr
  let e := b.reg (Reg.xptAper j)
  if addr < 0x400000000000 ∨ 0x800000000000 ≤ addr ∨ !bit e 63 ∨ !([1, 2, 4, 8, 16, 32] : List Nat).contains size ∨ addr % size ≠ 0 then aperFault
  else
    let n := bits e 15 0
    let p := { p with addr := g, first := true, last := true }
    match b.qp n with
    | none =>
      aperErr j 0x02
      if !store then aperFault
    | some q =>
      if b.gLocal q.part g then
        let c : Cx := { key := noSlot, die := q.die, p := 0, log := 0, bf := false, part := q.part, ctx := 0, pc := 0, w := 0, layer := 0, oper := 0 }
        match ← attempt (serveLocal c p) with
        | .error st =>
          if st = notYet then set b
          else if store then aperStoreErr j n st
          else
            aperErr j st
            aperFault
        | .ok v =>
          let x := v.answers.headD {}
          if x.status ≠ 0 then
            aperErr j x.status.toNat
            aperFault
          else if !store then
            modify (fun b => { b with host := { b.host with
              accessFault := false, resp := if p.op = 0x05 then natLe size x.opnd0.toNat else x.bytes.take size } })
      else if q.err.isSome ∨ q.peerPkg ≠ gPkg g ∨ q.peerPart ≠ gPart g then
        let st := if q.err.isSome then 0x01 else 0x02
        if store then aperStoreErr j n st
        else
          aperErr j st
          aperFault
      else
        let comp ← engineComp q.part
        if store then modify (fun b => b.count (Reg.xptAperSts j) 31 0 1)
        else modify (fun b => { b with host := { b.host with resp := [], accessFault := false } })
        postCmd n { comp := comp, kind := .aper j (if store then 0 else size), die := q.die, left := 0,
                    want := if store then 0 else if p.op = 0x03 then size else 1 } [(p, none)]

/-- APERTURE_LOAD (R570): an RREAD. -/
def execApertureLoad (_hart : Fin 32) (addr : Nat) (size : Nat) (s : State) : Host.Outcome State Fault Refusal :=
  s.act (aperture addr size false { op := 0x03, cls := 4, opnd0 := word size })

/-- APERTURE_STORE (R570): a write of LEN bytes. -/
def execApertureStore (_hart : Fin 32) (addr : Nat) (data : List Byte) (s : State) : Host.Outcome State Fault Refusal :=
  s.act (aperture addr data.length true { op := 0x01, cls := 4, len := BitVec.ofNat 16 data.length, bytes := data })

/-- APERTURE_AMO (R570): AMOADD.W and AMOADD.D; every other AMO, LR and SC raise an access fault. -/
def execApertureAmo (_hart : Fin 32) (addr : Nat) (op : HostOp) (size : Nat) (v : Word) (s : State) : Host.Outcome State Fault Refusal :=
  s.act (if op = .amoAdd ∧ (size = 4 ∨ size = 8) then
      aperture addr size false { op := 0x05, cls := 3, aux := BitVec.ofNat 32 (1 <<< 30 ||| (if size = 4 then 1 else 0) <<< 27), opnd0 := v }
    else aperFault)

end Sys2Proof.Machine
end

