-- ==== Sys2Proof/Machine/CollRows.lean ====
section
/-! DEFINITION. The commands of collectives, permutes and the mirror (12_collectives_and_pairs.md R576 to R593, R596, R598,
R610, R611). -/
namespace Sys2Proof.Machine

/-! ### XFER.COLL -/

/-- R576: the descriptor's words have nothing but their fields. -/
def collWordsOk (ws : List Word) : Bool :=
  let g := nth ws (0 : Word)
  rsvdExt (g 0) [(63, 60), (59, 56), (55, 54), (53, 52), (51, 51), (50, 47), (46, 43), (42, 40), (31, 0)] &&
  rsvdExt (g 1) [(63, 48), (47, 32), (31, 24), (9, 0)] && rsvdExt (g 2) [(41, 13)] && rsvdExt (g 3) [(41, 13)] &&
  rsvdExt (g 4) [(41, 6)] && rsvdExt (g 5) [(41, 13)] && rsvdExt (g 6) [(63, 50), (49, 18)] &&
  rsvdExt (g 8) [(63, 56), (55, 52), (15, 0)] && (ws.drop 10).all (fun w => decide (w = 0))

/-- R576, R577, R580: the form of a descriptor. -/
def collForm (ws : List Word) (df sf : Option Fmt) : Bool :=
  let g := nth ws (0 : Word)
  let pol := bits (g 0) 53 52
  collWordsOk ws && decide (1 ≤ bits (g 0) 63 60 ∧ bits (g 0) 63 60 ≤ 3) && decide (pol ≠ 3) && decide (bits (g 1) 31 24 ≠ 0) &&
  (decide (bits (g 1) 47 32 = 0) == decide (pol = 0)) && (!bit (g 0) 51 || decide (pol = 0)) &&
  (match df, sf with
  | some d, some s => addPair s d && (decide (s = d) || decide (bits (g 1) 9 0 % 2 = 1))
  | _, _ => false)

/-- The member's own local store, in its share, holds a descriptor: 0x0A elsewhere (R576, R592). -/
def descAddr (c : Cx) (va n al : Nat) : Act Nat := do
  need (va % al = 0) 0x0A
  let ps ← (piecesOf va n).mapM (fun q => do
    let (a, r) ← remLocal c q.1 .wr q.2
    need ((← get).ownLocal c a r) 0x0A
    pure a)
  pure (ps.headD 0)

/-- Frames that must lie where R229 allows; with `hbm` also in HBM (R577). -/
def collRange (c : Cx) (va frames : Nat) (p : Perm) (hbm : Bool) : Act Unit :=
  (List.range frames).forM (fun i => do
    let (a, r) ← remLocal c (va + i * 8192) p
    need ((← get).near c a r || (hbm && r.isTier && decide (r ≠ .ddr))) 0x0A)

/-- The job of a collective or permute (R580): enabled, and the issuing partition's. -/
def jobFor (c : Cx) (j : Nat) : Act JobRec := do
  need (bit ((← get).reg (Reg.colJob j)) 63) 0x02
  let r ← readJob j
  need (r.part = c.part) 0x02
  pure r

/-- What a collective that cannot run ends with at once (R605, R607): on a quarantined job, or a broken line. -/
def JobRec.closed (r : JobRec) (x : Nat) : Nat := if r.quar then 0x04 else if r.broken x then 0x08 else 0

/-- XFER.COLL (R576 to R582, R589, R590). -/
def xferColl (w : Word) (c : Cx) : Act Unit := do
  let b ← get
  let va := (b.sreg c.key (bits w 4 0)).toNat
  let desc ← descAddr c va 128 128
  let bs ← rdBytes c va 128
  let ws := (chunk 8 16 bs).map (fun x => word (leNat x))
  let g := nth ws (0 : Word)
  let df := Fmt.ofCode (bits (g 0) 50 47)
  let sf := Fmt.ofCode (bits (g 0) 46 43)
  need (collForm ws df sf) 0x0A
  let r ← jobFor c (bits (g 0) 59 56)
  let obj := bits (g 6) 63 50
  need (b.ownsSync c.part obj) 0x02
  let x := bits (g 0) 55 54
  let step := bits (g 0) 31 0
  let lost := r.mask x (fun m => decide (m = 2))
  let s := r.mask x (fun m => decide (m = 0))
  let follow := decide (step = (bits (g 7) 63 32 + 1) % 2 ^ 32)
  let comp : Comp := { id := b.nextId, slot := c.key, ctx := c.ctx, part := c.part, pc := c.pc, word := c.w, layer := c.layer,
                       oper := c.oper, nofault := bit w 47 }
  let k : Coll := {
    comp := comp, die := c.die, desc := desc, qps := r.lineQps x, kind := bits (g 0) 63 60, job := r.j, axis := x,
    pol := bits (g 0) 53 52, order := bit (g 0) 51 && decide (bits (g 0) 63 60 ≠ 2), fmt := df.getD .fp32, sfmt := sf.getD .fp32,
    land := bits (g 0) 42 40, step := step, series := bits (g 1) 63 48, deadline := bits (g 1) 47 32, ltag := bits (g 1) 31 24,
    frames := bits (g 1) 9 0 + 1, src := bits (g 2) 41 13 * 8192, dst := bits (g 3) 41 13 * 8192, recva := bits (g 4) 41 6 * 64,
    pbuf := bits (g 5) 41 13 * 8192, obj := obj, val := word (bits (g 6) 49 18), len := r.len x, pos := r.pos x,
    gives := decide (r.mstate x (r.pos x) = 0), stage := if bits (g 0) 63 60 = 2 then 1 else 0, s := s,
    q := if follow then bits (g 7) 31 16 &&& s else 0, lastStep := bits (g 7) 63 32,
    alts := (bitsOf lost 16).flatMap (fun p => match r.alt x p with
      | some a => [(p, a)]
      | none => []), lost := lost }
  let held := if b.col.holds.contains (b.series k) then bits (g 7) 15 0 else 0
  if k.kind ≠ 2 ∧ k.gives then
    (List.range k.len).forM (fun i => (List.range k.tiles).forM (fun t => do let _ ← remLocal c (k.at k.src i t) .rd))
  if k.kind ≠ 2 then
    let _ ← armCheck k (some c) k.land k.pos
    let mine := (k.alts.filter (fun a => decide (a.2 = k.pos))).map (·.1)
    (List.zip (List.range mine.length) mine).forM (fun y => do let _ ← armCheck k (some c) ((k.land + 1 + y.1) % 8) y.2)
  if k.kind ≠ 1 then
    collRange c k.dst (k.len * k.frames) .wr false
    if k.kind = 3 then
      (piecesOf k.recva (k.len * k.recLen)).forM (fun q => do
        let (a, reg) ← remLocal c q.1 .wr q.2
        need ((← get).near c a reg) 0x0A)
  if k.pol = 2 then collRange c k.pbuf (k.len * k.frames) .wr true
  if 64 ≤ ((← get).col.colls.filter (fun y => decide (y.die = c.die))).length then throw notYet
  let id ← begin' c.key c.ctx .coll
  if !follow then colCount c.die 2 (popcount held 16 * k.tiles)
  modify (fun b => { b with col := { b.col with colls := b.col.colls ++ [{ k with held := if follow then held else 0 }] } })
  if r.closed x ≠ 0 then endColl id (r.closed x)
  else if k.kind = 2 then gatherBegin id
  else reduceBegin id
  colSettle

def execXferColl (m : Member) (w : Word) (s : State) : Host.Outcome State Fault Refusal :=
  s.upd (issue m w 6 0x10 (wordOk w false (0, 0) && rsvdOk w [(47, 47), (4, 0)]) (xferColl w))

/-- COLL_STEP_COMPLETE (R583 to R585). -/
def execCollStepComplete (id : Nat) (s : State) : Host.Outcome State Fault Refusal :=
  s.act (do
    collStepComplete id
    colSettle)

/-- R646: do the deadlines of a collective stand still, because its member's core moves? -/
def Blk.collHeld (b : Blk) (id : Nat) : Bool :=
  (b.coll id).any (fun c => b.moving (keyDie c.comp.slot) (keyPhys c.comp.slot))

/-- COLL_DEADLINE_EXPIRY (R587). -/
def execCollDeadlineExpiry (id : Nat) (s : State) : Host.Outcome State Fault Refusal :=
  s.act (do
    if !(← get).collHeld id then collCut id
    colSettle)

/-- COLL_GRACE_EXPIRY (R587). -/
def execCollGraceExpiry (id : Nat) (s : State) : Host.Outcome State Fault Refusal :=
  s.act (do
    if !(← get).collHeld id then collGrace id
    colSettle)

/-! ### XFER.PERM -/

/-- XFER.PERM (R592, R593). -/
def xferPerm (w : Word) (c : Cx) : Act Unit := do
  let b ← get
  let va := (b.sreg c.key (bits w 4 0)).toNat
  let desc ← descAddr c va 64 8
  let bs ← rdBytes c va 64
  let ws := (chunk 8 8 bs).map (fun x => word (leNat x))
  let g := nth ws (0 : Word)
  let n := bits (g 0) 8 0
  need (rsvdExt (g 0) [(59, 56), (55, 54), (8, 0)] && rsvdExt (g 1) [(41, 4)] && rsvdExt (g 2) [(63, 50), (49, 18)] &&
    decide (1 ≤ n ∧ n ≤ 256)) 0x0A
  let table := bits (g 1) 41 4 * 16
  let _ ← descAddr c table (16 * n) 16
  let r ← jobFor c (bits (g 0) 59 56)
  let obj := bits (g 2) 63 50
  need (b.ownsSync c.part obj) 0x02
  let x := bits (g 0) 55 54
  let tb ← rdBytes c table (16 * n)
  let es := (chunk 16 n tb).map (fun y => (wordAt y 0, wordAt y 8))
  let pos := r.pos x
  need (es.all (fun e => decide (bits e.1 63 60 < r.len x ∧ bits e.1 59 56 < r.len x) &&
    rsvdExt e.1 [(63, 60), (59, 56), (55, 42), (41, 13)] && rsvdExt e.2 [(41, 13)])) 0x0A
  let frames (e : Word × Word) : Nat := bits e.1 55 42 + 1
  let from' (e : Word × Word) : Nat := bits e.1 63 60
  let to' (e : Word × Word) : Nat := bits e.1 59 56
  es.forM (fun e => do
    if from' e = pos then (List.range (frames e)).forM (fun i => do let _ ← remLocal c (bits e.1 41 13 * 8192 + i * 8192) .rd)
    if to' e = pos then (List.range (frames e)).forM (fun i => do
      let pa ← translate c.part (bits e.2 41 13 * 8192 + i * 8192) .wr
      let (_, reg) := (← get).resolve pa
      need (reg.isTier || reg.isStore) 0x02))
  let id ← begin' c.key c.ctx .coll
  let comp : Comp := { id := id, slot := c.key, ctx := c.ctx, part := c.part, pc := c.pc, word := c.w, layer := c.layer,
                       oper := c.oper, nofault := bit w 47 }
  let p : PermCmd := {
    comp := comp, die := c.die, desc := desc, qps := r.lineQps x, job := r.j, axis := x, len := r.len x, pos := pos, obj := obj,
    val := word (bits (g 2) 49 18),
    unread := (es.filter (fun e => decide (from' e = pos))).map (fun e =>
      ⟨to' e, frames e, bits e.1 41 13 * 8192, bits e.2 41 13 * 8192⟩),
    awaited := (es.filter (fun e => decide (to' e = pos ∧ from' e ≠ pos))).flatMap (fun e =>
      (List.range (frames e)).map (fun i => (r.qp x (from' e), bits e.2 41 13 * 8192 + i * 8192))) }
  modify (fun b => { b with col := { b.col with perms := b.col.perms ++ [p] } })
  if r.closed x ≠ 0 then endPerm id (r.closed x)
  colSettle

def execXferPerm (m : Member) (w : Word) (s : State) : Host.Outcome State Fault Refusal :=
  s.upd (issue m w 6 0x11 (wordOk w false (0, 0) && rsvdOk w [(47, 47), (4, 0)]) (xferPerm w))

/-! ### Registers of the mirror and the jobs -/

/-- COL_MIRROR_EN_WRITE (R598, R610). -/
def colMirrorEn (en : Bool) : Act Unit := do
  let w := (← get).reg Reg.colMirror
  if en then
    setFld Reg.colMirror 63 63 1
    if !bit w 63 ∨ bits w 61 60 = 0 ∨ bits w 61 60 = 2 then
      setFld Reg.colMirror 61 60 1
      modify (fun b => { b with col := { b.col with mseq := 0, unacked := [] } })
      mirPending
  else if bit w 63 then
    setFld Reg.colMirror 63 63 0
    mirrorAlone

def execColMirrorEnWrite (src : Src) (en : Bool) (s : State) : Host.Outcome State Fault Refusal :=
  s.regw src Reg.colMirror (setBit (s.blk.reg Reg.colMirror) 63 en) (colMirrorEn en)

/-- MIRROR_RESEND (R596): every unacknowledged frame is sent again; a failing pairing is paired again (log entry 41). -/
def mirrorResend : Act Unit := do
  let b ← get
  if bit (b.reg Reg.colMirror) 63 then
    if b.fld Reg.colMirror 61 60 = 3 then setFld Reg.colMirror 61 60 1
    b.col.unacked.forM mirrorPut

def execMirrorResend (src : Src) (s : State) : Host.Outcome State Fault Refusal :=
  s.regw src Reg.colMirror (setBit (s.blk.reg Reg.colMirror) 62 true) mirrorResend

/-- COL_JOB_DISABLE (R611). -/
def colJobDisable (j : Nat) : Act Unit := do
  if bit ((← get).reg (Reg.colJob j)) 63 then
    setFld (Reg.colJob j) 63 63 0
    endLine (fun k _ => decide (k = j)) 0x01
    modify (fun b => { b with col := { b.col with holds := b.col.holds.filter (fun h => decide (h.2.1 ≠ j)) } })

def execColJobDisable (src : Src) (j : Fin 16) (s : State) : Host.Outcome State Fault Refusal :=
  s.regw src (Reg.colJob j.val) (setBit (s.blk.reg (Reg.colJob j.val)) 63 false) (colJobDisable j.val)

end Sys2Proof.Machine
end

