-- ==== Sys2Proof/Machine/PageCode.lean ====
section
/-! DEFINITION. Commands at the memory controllers: reads and writes, merge windows, buckets, scrubbing (07_page_code.md). -/
namespace Sys2Proof.Machine

/-- Storage errors appear in a frame: each position is inverted (R339, R342, R344).  Positions that name no stored bit, and
frames that no tier holds, are left alone. -/
def addFlips (a : Nat) (flips : List Nat) : Act Unit := do
  let b ← get
  let (a, r) := b.resolve a
  if r.isTier then
    let f := a / 8192
    let m := b.fmeta f
    let real (p : Nat) : Bool := decide (p / 528 < 137) || (decide (p / 528 < 137 + levelSymbols (b.level r) / 32) && decide (p % 528 < 512))
    let errs := (flips.filter real).foldl (fun l p => if l.contains p then l.filter (fun x => decide (x ≠ p)) else l ++ [p]) m.errs
    set (b.setFmeta f { m with errs := errs })

/-- The answer of a read that reaches the controller from outside the engines. -/
def busAnswer (bs : List Byte) (st : Nat) : Act Unit :=
  modify (fun b => { b with host := { b.host with resp := bs, busPoison := decide (st ≠ 0) } })

/-- MEMORY_LINE_READ (R343, R349, R353, R369): lines of one frame. -/
def memoryLineRead (pa lines : Nat) (flips : List Nat) : Act Unit := do
  let b ← get
  let (a, r) := b.resolve pa
  let n := min lines (128 - a % 8192 / 64)
  if (r.isTier || r.isStore) && decide (0 < n) then
    addFlips a flips
    let (bs, st) ← readLinesAt (a / 64 * 64) (64 * n) r
    busAnswer bs st

def execMemoryLineRead (pa : Nat) (lines : Nat) (flips : List Nat) (s : State) : Host.Outcome State Fault Refusal :=
  s.act (memoryLineRead pa lines flips)

/-- MEMORY_FRAME_READ (R348, R349, R353, R369). -/
def memoryFrameRead (pa : Nat) (flips : List Nat) : Act Unit := do
  let b ← get
  let (a, r) := b.resolve pa
  if r.isTier || r.isStore then
    addFlips a flips
    let (f, st) ← readFrameAt (a / 8192 * 8192) r
    busAnswer (padTo 8192 f.data ++ padTo 512 f.side ++ headerBytes f.hdr) st

def execMemoryFrameRead (pa : Nat) (flips : List Nat) (s : State) : Host.Outcome State Fault Refusal :=
  s.act (memoryFrameRead pa flips)

/-- WHOLE_FRAME_WRITE (R351, R361, R370, R377): a pinned frame takes no write (R407). -/
def wholeFrameWrite (pa : Nat) (f : Frame) : Act Unit := do
  let b ← get
  let (a, r) := b.resolve pa
  if (r.isTier || r.isStore) && !b.pinned a then writeFrameAt (a / 8192 * 8192) r f

def execWholeFrameWrite (pa : Nat) (f : Frame) (s : State) : Host.Outcome State Fault Refusal := s.act (wholeFrameWrite pa f)

/-- SUB_FRAME_WRITE (R355 to R359). -/
def execSubFrameWrite (pa : Nat) (bytes : List Byte) (s : State) : Host.Outcome State Fault Refusal := s.act (writePa ⟨none⟩ pa bytes)

/-- MERGE_WINDOW_EXPIRY (R358): the named controller's entry is closed by read-modify-write. -/
def mergeWindowExpiry (ctl f : Nat) : Act Unit := do
  match (← get).entry f with
  | some e => if e.ctl = ctl then closeEntry e
  | none => pure ()

def execMergeWindowExpiry (ctl : Fin 16) (frame : Nat) (s : State) : Host.Outcome State Fault Refusal :=
  s.act (mergeWindowExpiry ctl.val frame)

/-- R363: close every entry of the controllers that `which` selects, oldest first. -/
def closeMerges (which : Nat → Bool) : Act Unit := do
  ((← get).mem.merge.filter (fun e => which e.ctl)).forM closeEntry

/-- BUCKET_LEAK (R365): one leak instant of the grid. -/
def bucketLeak (b : Blk) : Blk :=
  if b.fld Reg.eccBucketCtrl 47 32 = 0 then b
  else (List.range 21).foldl (fun b n => b.setFld (Reg.eccCnt n) 63 48 (b.fld (Reg.eccCnt n) 63 48 - 1)) b

def execBucketLeak (s : State) : Host.Outcome State Fault Refusal := s.upd bucketLeak

/-- ECC_BUCKET_CTRL_WRITE (R365, R368): an interrupt turned on over a recorded event is announced. -/
def eccBucketCtrlWrite (v : Word) : Act Unit := do
  let old := (← get).reg Reg.eccBucketCtrl
  setReg Reg.eccBucketCtrl (v &&& 0x0000FFFF0003FFFF)
  let sts := (← get).reg Reg.eccSts
  if !bit old 17 && bit v 17 && decide (bits sts 52 32 ≠ 0) then sendMsi 2
  if !bit old 16 && bit v 16 && decide (bits sts 20 0 ≠ 0) then sendMsi 2

def execEccBucketCtrlWrite (src : Src) (v : Word) (s : State) : Host.Outcome State Fault Refusal :=
  s.regw src Reg.eccBucketCtrl v (eccBucketCtrlWrite v)

/-- The usable frames of a scrub range (R373): 0, 1 the HBM of the dies, 2 the DDR5 tier. -/
def Blk.scrubFrames (b : Blk) (i : Nat) : Nat := if i < 2 then (b.top i - hbmBase i) / 8192 else b.top 2 / 8192
/-- The physical address of a range's frame. -/
def scrubAddr (i n : Nat) : Nat := (if i < 2 then hbmBase i else 0) + n * 8192

/-- The scrubber moves on: the next frame, the next range, the next pass. -/
def scrubNext (i n : Nat) : Act Unit := do
  if n + 1 < (← get).scrubFrames i then setFld Reg.eccScrubSts 29 0 (n + 1)
  else
    setFld Reg.eccScrubSts 29 0 0
    if i < 2 then setFld Reg.eccScrubSts 31 30 (i + 1)
    else
      setFld Reg.eccScrubSts 31 30 0
      modify (fun b => b.setFld Reg.eccScrubSts 63 32 (b.fld Reg.eccScrubSts 63 32 + 1))

/-- SCRUB_FRAME (R373, R374, R376): the next frame is read, corrected or poisoned.  HBM waits while the package is in Doze. -/
def scrubFrame (flips : List Nat) : Act Unit := do
  let b ← get
  let i := b.fld Reg.eccScrubSts 31 30
  let n := b.fld Reg.eccScrubSts 29 0
  if bit (b.reg Reg.eccScrubCtrl) 0 && !(decide (2 ≤ b.fld Reg.aonPwrSts 63 61) && decide (i < 2)) then
    let (a, r) := b.resolve (scrubAddr i n)
    if r.isTier && decide (n < b.scrubFrames i) then
      addFlips a flips
      if !(← get).unwritten (a / 8192) && ((← get).entry (a / 8192)).isNone then
        let _ ← readFrameAt a r true
    scrubNext i n

def execScrubFrame (flips : List Nat) (s : State) : Host.Outcome State Fault Refusal := s.act (scrubFrame flips)

/-- An SRAM error as the package records it (R364 to R367, R372): a store's uncorrectable word poisons its frame. -/
def sramError (e : SramError) (scrub : Bool) : Act Unit := do
  if e.uncorrectable then
    if e.source = 16 ∨ e.source = 17 then poisonFrame ((← get).resolve e.addr).1
    uncorrectable e.source scrub 0 e.addr
  else correctable e.source scrub 0 e.addr

/-- SCRUB_SRAM (R372, R375). -/
def execScrubSram (e : SramError) (s : State) : Host.Outcome State Fault Refusal :=
  s.upd (fun b => if bit (b.reg Reg.eccScrubCtrl) 1 && decide (e.source ≤ 20) then (sramError e true).exec' b else b)

end Sys2Proof.Machine
end

