-- ==== Sys2Proof/Machine/Upd.lean ====
section
/-! DEFINITION. The UPD class: program slots, RUN with its stamps, pins and commit, SNAP and UNPIN (08_training_step.md R379 to
R415). -/
namespace Sys2Proof.Machine

/-! ### Update programs (R387 to R391) -/

/-- R388: may a step read this operand code? -/
def operandReads (lay4 fact : Bool) (x : Nat) : Bool :=
  if x = 2 then lay4 else if x = 5 then fact else decide (x ≤ 0x12 ∨ 0x18 ≤ x)

/-- R388: may a step write it? -/
def operandWrites (lay4 : Bool) (x : Nat) : Bool := if x = 2 then lay4 else decide (x = 0 ∨ x = 1 ∨ x = 3 ∨ 0x18 ≤ x)

/-- R389: how many of the operands A, B and C an OP uses; none for a reserved OP. -/
def upOperands (op : Nat) : Option Nat := match op with
  | 0x01 => some 2 | 0x02 => some 2 | 0x03 => some 2 | 0x04 => some 3 | 0x05 => some 3 | 0x06 => some 2 | 0x07 => some 2
  | 0x08 => some 1 | 0x09 => some 1 | 0x0A => some 1 | 0x0B => some 1 | 0x0C => some 1 | 0x0D => some 1 | 0x0E => some 2
  | 0x0F => some 3 | _ => none

def ustepOf (x : Word) : UStep := ⟨bits x 63 58, bits x 57 53, bits x 52 48, bits x 47 43, bits x 42 38⟩

/-- R388, R389, R401: is a step word well formed? -/
def ustepOk (lay4 fact : Bool) (x : Word) : Bool :=
  let u := ustepOf x
  match upOperands u.op with
  | none => false
  | some n => decide (bits x 37 0 = 0) && operandWrites lay4 u.d && (([u.a, u.b, u.c]).take n).all (operandReads lay4 fact) &&
      (([u.a, u.b, u.c]).drop n).all (fun y => decide (y = 0))

/-- R387, R401: the program that a block's 64 words hold, if it is well formed. -/
def progOf (ws : List Word) : Option Prog :=
  let h := nth ws (0 : Word) 0
  let n := bits h 63 58
  let lay4 := bit h 57
  let fact := bit h 56
  let fb := bits h 55 51
  let steps := (ws.drop 8).take n
  if decide (1 ≤ n ∧ n ≤ 32) && decide (bits h 47 0 = 0) && (RM.ofCode (bits h 50 48)).isSome &&
      (if fact then decide (0x07 ≤ fb ∧ fb ≤ 0x12) else decide (fb = 0)) &&
      ((ws.drop 5).take 3).all (fun x => decide (x = 0)) && steps.all (ustepOk lay4 fact) &&
      (ws.drop (8 + n)).all (fun x => decide (x = 0)) then
    some { lay4 := lay4, fact := fact, fbop := fb, mrm := bits h 50 48,
           ks := ((ws.drop 1).take 4).flatMap (fun x => [bits x 31 0, bits x 63 32]), steps := steps.map ustepOf }
  else none

/-- LERP (R389). -/
def lerp (a b c : Val) : Val := rne32 (((rne32 (b.add a.neg)).mul c).add a)

/-- SGN (R389). -/
def sgn (a : Val) : Val := if a.isNan then .nan else if a.isZero then a else .fin a.isNeg 1 0

/-- SQRT (R389): correctly rounded. -/
def sqrt32 (a : Val) : Val :=
  match a with
  | .nan => .nan
  | .inf s => if s then .nan else .inf false
  | .fin s m e =>
    if m = 0 then .fin s 0 0
    else if s then .nan
    else
      let q := sqrtVal m e
      ofF32 (toF32 (.fin false q.1 q.2.1) q.2.2)

/-- R389: the result of an OP. -/
def upResult (op : Nat) (a b c : Val) : Val :=
  match op with
  | 0x01 => fadd a b
  | 0x02 => fadd a b.neg
  | 0x03 => fmul a b
  | 0x04 => rne32 ((a.mul b).add c)
  | 0x05 => lerp a b c
  | 0x06 => vmin a b
  | 0x07 => vmax a b
  | 0x08 => a.withSign false
  | 0x09 => a.neg
  | 0x0A => sgn a
  | 0x0B => rcp32 a
  | 0x0C => rsq32 a
  | 0x0D => sqrt32 a
  | 0x0E => vmin (vmax a (b.withSign true)) (b.withSign false)
  | _ => if c.isZero then b else a

/-- R390: run the steps over the 32 operand values of one parameter, by code. -/
def Prog.run (p : Prog) (env : List Val) : List Val :=
  p.steps.foldl (fun e u => setNth e u.d (upResult u.op (nth e .zero u.a) (nth e .zero u.b) (nth e .zero u.c))) env

/-- Does some step write this operand? -/
def Prog.writes (p : Prog) (x : Nat) : Bool := p.steps.any (fun u => decide (u.d = x))

/-- R388: the values by operand code that a parameter starts with. -/
def Prog.env (p : Prog) (x : Word) (w m1 m2 a g v n : Val) : List Val :=
  [w, m1, m2, a, g, v, n, .zero] ++ p.ks.map ofF32 ++ [ofF32 (bits x 63 32), ofF32 (bits x 31 0), .ofInt 1] ++ List.replicate 13 .zero

/-- R387: the factor blend. -/
def Prog.blend (p : Prog) (x : Word) : Val := nth (p.env x .zero .zero .zero .zero .zero .zero .zero) .zero p.fbop

/-- The 512 bytes as words. -/
def blockWords (n : Nat) (bs : List Byte) : List Word := (chunk 8 n bs).map (fun y => word (leNat y))

/-- UPD.PROG (R387, R401). -/
def updProg (w : Word) (c : Cx) : Act Unit := do
  let va := ((← get).sreg c.key (bits w 4 0)).toNat
  need (va % 512 = 0) 0x0A
  let bs ← rdBytes c va 512 (fun b => b.ownLocal c)
  match progOf (blockWords 64 bs) with
  | none => throw 0x0A
  | some p => modSlot c.key (fun s => { s with progs := s.progs.setIfInBounds (bits w 47 46) (some p) })

def execUpdProg (m : Member) (w : Word) (s : State) : Host.Outcome State Fault Refusal :=
  s.upd (issue m w 7 0x00 (wordOk w false (0, 0) && rsvdOk w [(47, 46), (4, 0)]) (updProg w))

/-! ### The shard block (R379 to R381) -/

/-- A shard block: its virtual and physical address and its words. -/
structure Shard where
  va : Nat
  pa : Nat
  ws : List Word
deriving DecidableEq, Repr

def Shard.w (k : Shard) (off : Nat) : Word := nth k.ws (0 : Word) (off / 8)
/-- A frame address given as bits [41:13] of a word. -/
def Shard.frame (k : Shard) (off : Nat) : Nat := bits (k.w off) 41 13 * 8192
def Shard.gcnt (k : Shard) : Nat := bits (k.w 0) 63 48
/-- GT (R380). -/
def Shard.tiles (k : Shard) : Nat := k.gcnt / 2
def Shard.wfmt (k : Shard) : Fmt := (Fmt.ofCode (bits (k.w 0) 47 44)).getD .fp32
def Shard.rvalid (k : Shard) : Bool := bit (k.w 0) 39
def Shard.mirror (k : Shard) : Bool := bit (k.w 0) 38
def Shard.gacc (k : Shard) : Bool := bit (k.w 0) 37
def Shard.sig (k : Shard) : Bool := bit (k.w 0) 36
def Shard.obj (k : Shard) : BitVec 32 := BitVec.ofNat 32 (bits (k.w 0) 31 0)
def Shard.sobj (k : Shard) : Nat := bits (k.w 0x48) 63 50
/-- R381: working-copy frame 0 of step `s`. -/
def Shard.wb (k : Shard) (s : Nat) : Nat := (if s % 2 = 1 then bits (k.w 0x20) 57 29 else bits (k.w 0x20) 28 0) * 8192
/-- Factor frame 0 of the bank of a step. -/
def Shard.fb (k : Shard) (s : Nat) : Nat := (if s % 2 = 1 then bits (k.w 0x28) 57 29 else bits (k.w 0x28) 28 0) * 8192
/-- Is the working copy in an 8-bit format, two weight tiles to a frame? -/
def Shard.half (k : Shard) : Bool := decide (k.wfmt = .e4m3 ∨ k.wfmt = .e5m2)
/-- Statistics or factor frames of the group. -/
def Shard.eighths (k : Shard) : Nat := (k.tiles + 7) / 8

/-- Read the shard block that a register names (R379). -/
def readShard (c : Cx) (va : Nat) : Act Shard := do
  need (va % 128 = 0) 0x0A
  let bs ← rdBytes c va 128 (fun b => b.ownLocal c)
  let (pa, _) ← rdAddr c va
  pure ⟨va, pa, blockWords 16 bs⟩

/-- R379, R380, R404: the fields that a RUN judges first. -/
def Shard.ok (k : Shard) : Bool :=
  decide (2 ≤ k.gcnt ∧ k.gcnt ≤ 1024 ∧ k.gcnt % 2 = 0) && (!k.half || decide (k.gcnt % 4 = 0)) &&
  decide (k.wfmt = .bf16 ∨ k.wfmt = .fp16 ∨ k.half) && (RM.ofCode (bits (k.w 0) 43 41)).isSome

/-- The state object of a group: valid and owned by the issuing partition (R404). -/
def shardObj (c : Cx) (k : Shard) : Act Obj := do
  let o ← getObj k.obj
  need (o.owner = c.part) 0x02
  pure o

/-- The package's words of a block. -/
def blockPut (pa n v : Nat) : Act Unit := quietly (writePa ⟨none⟩ pa (natLe n v))

/-! ### Frames of a group -/

/-- The header of a frame as a RUN sees it before it reads the frame; nothing where a read would find the frame bad. -/
def Blk.peek (b : Blk) (a : Nat) (r : Region) : Option Header :=
  let m := b.fmeta (a / 8192)
  let v := codeView m.errs
  let bad := if r.isTier then b.unwritten (a / 8192) || decide (levelSymbols (b.level r) < v.erased + 2 * v.symErrs) else !m.errs.isEmpty
  if bad || m.hdr.poison then none else some m.hdr

/-- R383: a frame carries FMT 0x0. -/
def fmtZero (x : Nat × Region) : Act Unit := do
  match (← get).peek x.1 x.2 with
  | some h => need (h.fmt = 0) 0x0A
  | none => pure ()

/-- R381: a cluster store of the die, or its HBM. -/
def gradPlace (d : Nat) : Region → Bool
  | .cluster e _ => decide (e = d)
  | .hbm e => decide (e = d)
  | _ => false

def Region.isHbm : Region → Bool
  | .hbm _ => true
  | _ => false

/-- Resolve consecutive frames from a base, each in a permitted place (R381, R404). -/
def framesAt (c : Cx) (base n : Nat) (write : Bool) (place : Region → Bool) : Act (List (Nat × Region)) :=
  (List.range n).mapM (fun i => do
    let x ← if write then wrAddr c (base + i * 8192) else rdAddr c (base + i * 8192)
    need (place x.2) 0x02
    pure x)

/-- The state frames of a group: in HBM, inside the object's fast copy (R381, R404). -/
def stateFrames (c : Cx) (k : Shard) (o : Obj) (n : Nat) (write : Bool) : Act (List (Nat × Region)) := do
  let l ← framesAt c (k.frame 0x18) n write Region.isHbm
  need (l.all (fun x => decide (o.fast ≤ x.1 ∧ x.1 < o.fast + o.frames * 8192))) 0x02
  pure l

/-- Read a frame at a resolved address, ending with its bad status. -/
def goodFrame (x : Nat × Region) : Act Frame := do
  let (f, st) ← readFrameAt x.1 x.2
  need (st = 0) st
  pure f

/-- Read 64 FP32 values. -/
def goodVector (x : Nat × Region) (off : Nat) : Act (List Nat) := do
  let (bs, st) ← readLinesAt (x.1 + off) 256 x.2
  need (st = 0) st
  pure ((chunk 4 64 bs).map leNat)

def at' (l : List (Nat × Region)) (i : Nat) : Nat × Region := nth l (0, .nothing) i

/-! ### The gradient (R393 to R397) -/

/-- The gradient values of a weight tile, row by row (R215). -/
def gradTile (grads : List (Nat × Region)) (t : Nat) : Act (List Val) := do
  let f ← goodFrame (at' grads (2 * t))
  let g ← goodFrame (at' grads (2 * t + 1))
  pure (sideBySide 32 [Fmt.fp32.values f.data [], Fmt.fp32.values g.data []]).flatten

/-- The contributor count of column `j` of a tile. -/
def countOf (ns : List Nat) (t j : Nat) : Nat := nth ns 0 (2 * t + j / 32)

/-- R394: the exact sum of squares that a tile adds to Q. -/
def tileSquares (ns : List Nat) (t : Nat) (g : List Val) : Val :=
  exactSq ((List.zip (List.range 4096) g).filterMap (fun x =>
    let n := countOf ns t (x.1 % 64)
    if n = 0 then none else some (fdiv x.2 (.ofInt n))))

/-- R394: s under GSC 0b01. -/
def normScale (t q : Val) : Val :=
  let t2 := t.mul t
  if !t2.isNan && !q.isNan && decide (q.cmp t2 ≤ 0) then .ofInt 1 else rne32 (t.mul (rsq32 q))

/-- R397: the prepared vector: each sum × s² / (ns × 64), rounded once. -/
def prepVector (s : Val) (n : Nat) (l : List Val) : List Val := l.map (fun x => fdiv ((x.mul s).mul s) (.ofInt (n * 64)))

/-- R397: the row and column factors, and the estimate of every parameter. -/
structure Factors where
  r : List Nat
  c : List Nat
  v : List Val
deriving DecidableEq, Repr

def factorStage (fb s : Val) (n : Nat) (rs cs : List Val) (r c : List Nat) : Factors :=
  let blend (old : List Nat) (new : List Val) : List Nat := if n = 0 then old else List.zipWith (fun o p => toF32 (lerp (ofF32 o) p fb)) old (prepVector s n new)
  let r' := blend r rs
  let c' := blend c cs
  let mu := rne32 ((exactSum (r'.map ofF32)).scale (-6))
  let pos := !mu.isNan && decide (0 < mu.cmp .zero)
  ⟨r', c', r'.flatMap (fun x => c'.map (fun y => if pos then fdiv ((ofF32 x).mul (ofF32 y)) mu else .zero))⟩

/-! ### Packed layout (R382) -/

/-- The codes of a field of a state frame. -/
def packedField (lay4 : Bool) (d : List Byte) (fld : Nat) : List Nat :=
  if lay4 then (chunk 4 512 ((d.drop (2048 * fld)).take 2048)).map leNat
  else match fld with
    | 0 => (chunk 4 1024 (d.take 4096)).map leNat
    | 1 => (chunk 2 1024 ((d.drop 4096).take 2048)).map leNat
    | 3 => (chunk 2 1024 ((d.drop 6144).take 2048)).map leNat
    | _ => List.replicate 1024 0

/-- The value of a field's code. -/
def packedVal (lay4 : Bool) (fld x : Nat) : Val := if lay4 || decide (fld = 0) then ofF32 x else bf16.decode x

/-- A parameter after the program: its four codes, w for the working copy, the categories of the conversions. -/
structure ParamOut where
  fields : List Nat
  w : Val
  cats : List Nat
deriving DecidableEq, Repr

/-- R390 to R392: one parameter.  `draw i` is the lane's `i`th draw for it. -/
def param (p : Prog) (x : Word) (old : List Nat) (g v : Val) (n : Nat) (draw : Nat → Nat) : ParamOut :=
  let vals := List.zipWith (fun i o => packedVal p.lay4 i o) (List.range 4) old
  let val (i : Nat) := nth vals .zero i
  if n = 0 then ⟨old, val 0, []⟩
  else
    let e := p.run (p.env x (val 0) (val 1) (val 2) (val 3) g v (.ofInt n))
    let reg (i : Nat) := nth e .zero i
    if p.lay4 then
      ⟨List.zipWith (fun i o => if p.writes i then toF32 (reg i) else o) (List.range 4) old, reg 0, []⟩
    else
      let rm := (RM.ofCode p.mrm).getD .rne
      let m := bf16.convert rm false (draw 0) (reg 1)
      let a := bf16.convert rm false (draw (b2n (p.writes 1))) (reg 3)
      ⟨[if p.writes 0 then toF32 (reg 0) else nth old 0 0, if p.writes 1 then m.1 else nth old 0 1, 0,
          if p.writes 3 then a.1 else nth old 0 3], reg 0,
        (if p.writes 1 then [m.2] else []) ++ (if p.writes 3 then [a.2] else [])⟩

/-- The bytes of a state frame from its parameters. -/
def packedBytes (lay4 : Bool) (ps : List ParamOut) : List Byte :=
  let fld (b i : Nat) : List Byte := ps.flatMap (fun p => natLe b (nth p.fields 0 i))
  if lay4 then fld 4 0 ++ fld 4 1 ++ fld 4 2 ++ fld 4 3 else fld 4 0 ++ fld 2 1 ++ fld 2 3

/-- R392, R396: the parameters of state frame `f` (of `rows` rows) of weight tile `t`, at virtual address `va`. -/
def bandParams (p : Prog) (x seed : Word) (va t f rows : Nat) (ns : List Nat) (g v : List Val) (data : List Byte) : List ParamOut :=
  let flds := (List.range 4).map (packedField p.lay4 data)
  let base := f * rows * 64
  let per := b2n (p.writes 1) + b2n (p.writes 3)
  let olds := columns 0 (rows * 64) flds
  (List.zip (List.range (rows * 64)) (List.zip olds (List.zip ((g.drop base).take (rows * 64)) ((v.drop base).take (rows * 64))))).map (fun y =>
    param p x y.2.1 y.2.2.1 y.2.2.2 (countOf ns t (y.1 % 64))
      (fun i => srDraw seed (va % 2 ^ 42 / 128) (y.1 % 256) (y.1 / 256 * per + i)))

/-! ### Weight tiles (R409, R410) -/

/-- What a RUN works with: its block, program, immediates, step, scale, counts, and the resolved frames. -/
structure RunCx where
  k : Shard
  p : Prog
  x : Word
  s : Nat
  sc : Val
  ns : List Nat
  nst : List Nat
  needQ : Bool
  per : Nat
  grads : List (Nat × Region)
  stats : List (Nat × Region)
  fin : List (Nat × Region)
  fout : List (Nat × Region)
  sts : List (Nat × Region)
  works : List (Nat × Region)
deriving DecidableEq, Repr

/-- The working-copy frame of a weight tile (R381, R391, R392); of two tiles in one frame the other half stays (log entry
42). -/
def workFrame (c : Cx) (u : RunCx) (t : Nat) (ws : List Val) : Act Unit := do
  let f := u.k.wfmt
  let i := if u.k.half then t / 2 else t
  let (a, r) := at' u.works i
  let cv : Conv := ⟨(RM.ofCode (bits (u.k.w 0) 43 41)).getD .rne, bit (u.k.w 0) 40, .floor⟩
  let draws := vecDraws ((← get).slot c.key).seed ((u.k.wb u.s + i * 8192) % 2 ^ 42 / 128) (64 * f.k)
  let col := if u.k.half then 64 * (t % 2) else 0
  let es := List.zipWith (fun j v => f.convert1 cv (nth draws 0 (j / 64 * f.k + col + j % 64)) v) (List.range 4096) ws
  census c 2 f (es.map (·.2))
  let new := chunk 64 64 (es.map (·.1))
  let rows ← if u.k.half then do
      let old ← if ((← get).peek a r).isSome then do
          let (fr, st) ← readFrameAt a r
          pure (if st = 0 then f.codes fr.data else [])
        else pure []
      let olds := chunk 128 64 (old ++ List.replicate (8192 - old.length) 0)
      pure (List.zipWith (fun o n => if t % 2 = 0 then n ++ o.drop 64 else o.take 64 ++ n) olds new)
    else pure new
  writeFrameAt a r ⟨c.header f false 0 false u.s, [], f.pack rows.flatten⟩

/-- Write a tile's factor entry: a part of a frame, whose header is that of the step (R381, R383, R409). -/
def factorWrite (c : Cx) (u : RunCx) (t : Nat) (f : Factors) : Act Unit := do
  let (a, r) := at' u.fout (t / 8)
  writeLinesAt (a + 1024 * (t % 8)) r (padTo 1024 (f32Bytes (f.r ++ f.c)))
  modify (fun b =>
    if b.unwritten (a / 8192) then b
    else b.setFmeta (a / 8192) { b.fmeta (a / 8192) with hdr := { c.header .fp32 false 0 false u.s with poison := (b.fmeta (a / 8192)).hdr.poison } })

/-- Does a state frame show the step already? -/
def Blk.shows (b : Blk) (s : Nat) (x : Nat × Region) : Bool := (b.peek x.1 x.2).any (fun h => decide (h.stamp.toNat = s))

/-- The state frames of a weight tile. -/
def RunCx.band (u : RunCx) (t : Nat) : List (Nat × Region) := (u.sts.drop (u.per * t)).take u.per

def updCount (c : Cx) (hi lo n : Nat) : Act Unit := countFld (Reg.coreUpdCnt c.die c.p) hi lo n

/-- One weight tile (R396, R397, R409, R410): what it adds to Q. -/
def runTile (c : Cx) (u : RunCx) (run t : Nat) : Act Val := do
  let b ← get
  let band := u.band t
  let done := band.map (b.shows u.s)
  let all := done.all id
  let g ← if all && !u.needQ then pure [] else gradTile u.grads t
  let q := if u.needQ then tileSquares u.ns t g else .zero
  updCount c 47 32 (done.filter id).length
  if !all then
    let fx ← if u.p.fact then do
        let n := nth u.nst 0 (t / 8)
        let off := 1024 * (t % 8)
        let rs ← goodVector (at' u.stats (t / 8)) off
        let cs ← goodVector (at' u.stats (t / 8)) (off + 256)
        let r ← goodVector (at' u.fin (t / 8)) off
        let cc ← goodVector (at' u.fin (t / 8)) (off + 256)
        pure (factorStage (u.p.blend u.x) u.sc n (rs.map ofF32) (cs.map ofF32) r cc)
      else pure ⟨[], [], List.replicate 4096 .zero⟩
    let frames ← band.mapM goodFrame
    let seed := ((← get).slot c.key).seed
    let pg := List.zipWith (fun j y =>
      let n := countOf u.ns t (j % 64)
      if n = 0 then .zero else fdiv (y.mul u.sc) (.ofInt n)) (List.range 4096) g
    let rows := 64 / u.per
    let outs := List.zipWith (fun f (y : Frame) =>
      bandParams u.p u.x seed (u.k.frame 0x18 + (u.per * t + f) * 8192) t f rows u.ns pg fx.v y.data) (List.range u.per) frames
    let ws := (List.zip (List.range u.per) (List.zip outs frames)).flatMap (fun y =>
      if nth done false y.1 then (packedField u.p.lay4 y.2.2.data 0).map ofF32 else y.2.1.map (·.w))
    workFrame c u t ws
    (List.zip (List.zip done outs) band).forM (fun y =>
      if y.1.1 then pure ()
      else do
        census c 2 .bf16 (y.1.2.flatMap (·.cats))
        writeFrameAt y.2.1 y.2.2 ⟨c.header .fp32 false 0 false u.s, [], packedBytes u.p.lay4 y.1.2⟩)
    if u.p.fact then factorWrite c u t fx
    updCount c 63 48 ((List.range 2).filter (fun h => decide (countOf u.ns t (32 * h) = 0))).length
    updCount c 31 0 1
    if u.k.mirror && (← get).mirrorOn then
      mirrorSend run ((List.zip done band).filterMap (fun y => if y.1 then none else some y.2.1))
      if u.p.fact && decide (t % 8 = 7 ∨ t + 1 = u.k.tiles) then mirrorSend run [(at' u.fout (t / 8)).1]
  blockPut (u.k.pa + 0x58) 4 (t + 1)
  pure q

/-- Free values in place of a result that the spec does not state (log entry 14). -/
def freeCodes (n : Nat) : Act (List Nat) := do
  let i := (← get).free
  modify (fun b => { b with free := b.free + n })
  pure ((List.range n).map (fun j => (Config.freeWord (i + j)).toNat % 2 ^ 32))

/-- R413: deliver one weight tile to the hand-off area.  Where a count is 0 the spec states no prepared value (log entry 44). -/
def nearTile (c : Cx) (u : RunCx) (t : Nat) : Act Val := do
  let g ← gradTile u.grads t
  let q := if u.needQ then tileSquares u.ns t g else .zero
  let free ← freeCodes (if countOf u.ns t 0 = 0 ∨ countOf u.ns t 32 = 0 then 4096 else 0)
  let out := List.zipWith (fun j y =>
    let n := countOf u.ns t (j % 64)
    if n = 0 then nth free 0 j else toF32 (fdiv (y.mul u.sc) (.ofInt n))) (List.range 4096) g
  let hb := u.k.frame 0x50
  wrBytes c (hb + 16384 * t) (f32Bytes out)
  if u.p.fact then
    let n := nth u.nst 0 (t / 8)
    let rs ← goodVector (at' u.stats (t / 8)) (1024 * (t % 8))
    let cs ← goodVector (at' u.stats (t / 8)) (1024 * (t % 8) + 256)
    let vs ← if n = 0 then freeCodes 128 else pure (f32Codes (prepVector u.sc n ((rs ++ cs).map ofF32)))
    wrBytes c (hb + 16384 * u.k.tiles + 512 * t) (f32Bytes vs)
  blockPut (u.k.pa + 0x58) 4 (t + 1)
  pure q

/-! ### UPD.RUN -/

/-- Contributor counts of `n` frames from landing tile `first` (R393, R397). -/
def landCounts (c : Cx) (k : Shard) (first n : Nat) : Act (List Nat) := do
  if k.rvalid then
    let bs ← rdBytes c (bits (k.w 0x10) 41 4 * 16 + 16 + 8 * first) (8 * n) (fun b => b.near c)
    pure ((blockWords n bs).map (fun w => popcount w.toNat 64))
  else pure (List.replicate n 1)

/-- Is a RUN of this shard block under way? -/
def Blk.runBusy (b : Blk) (pa : Nat) : Bool := b.runs.any (fun r => decide (r.blk = pa) && !r.waits)

/-- R406: the pin of a RUN: the one that the same block and step hold, or the die's lowest free entry. -/
def takePin (c : Cx) (k : Shard) (s : Nat) (frames : List Nat) (record : Nat × Nat) : Act Unit := do
  let b ← get
  let mine := b.pins.find? (fun p => decide (p.blk = k.pa ∧ p.step = s))
  let used := (b.pins.filter (fun p => match (b.resolve p.blk).2 with
    | .store d _ => decide (d = c.die)
    | _ => false)).map (·.entry)
  match mine.map (·.entry) |>.or ((List.range 64).find? (fun e => !used.contains e)) with
  | none => throw notYet
  | some e => set { b with pins := b.pins.filter (fun (p : Pin) => !decide (p.blk = k.pa ∧ p.step = s)) ++ [Pin.mk e k.pa s c.part frames record] }

/-- The scale of a RUN (R394) and, where the pre-pass has found it, the exact Q. -/
def runScale (k : Shard) (gsc : Nat) (ns : List Nat) (grads : List (Nat × Region)) : Act Val := do
  match gsc with
  | 0 => pure (.ofInt 1)
  | 1 =>
    let q ← (List.range k.tiles).foldlM (fun (a : Val) t => do pure (a.add (tileSquares ns t (← gradTile grads t)))) Val.zero
    pure (normScale (ofF32 (bits (k.w 0x38) 31 0)) (rne32 q))
  | _ => pure (ofF32 (bits (k.w 0x38) 63 32))

/-- UPD.RUN (R402 to R413): every weight tile is computed here, and RUN_COMMIT completes the RUN. -/
def updRun (w x : Word) (c : Cx) : Act Unit := do
  let b ← get
  let s := (b.sreg c.key (bits w 4 0)).toNat % 2 ^ 32
  let gsc := bits w 45 44
  match ((b.slot c.key).progs.toList[bits w 47 46]?).getD none with
  | none => throw 0x0A
  | some p =>
    need (gsc ≠ 3) 0x0A
    let k ← readShard c (b.sreg c.key (bits w 9 5)).toNat
    need k.ok 0x0A
    if b.runBusy k.pa then throw notYet
    need (b.pins.all (fun y => decide (y.blk ≠ k.pa ∨ y.step = s))) 0x0A
    let o ← shardObj c k
    let near := decide (o.uplace = 2)
    need (decide (o.uplace ≠ 3) && (near || decide (o.st = 2))) 0x0A
    if k.sig then need (b.ownsSync c.part k.sobj) 0x02
    let grads ← framesAt c (k.frame 0x08) k.gcnt false (gradPlace c.die)
    grads.forM fmtZero
    let nf := if p.fact then k.eighths else 0
    let stats ← framesAt c (k.frame 0x30) nf false (gradPlace c.die)
    stats.forM fmtZero
    let record := bits (k.w 0x10) 41 4 * 16
    if k.rvalid then
      let h ← rdBytes c record 8 (fun b => b.near c)
      need (decide (bits (wordAt h 0) 41 40 = 1 ∨ bits (wordAt h 0) 41 40 = 2)) 0x0A
    let first := bits (k.w 0x08) 63 48
    let sfirst := bits (k.w 0x30) 63 48
    let ns ← landCounts c k first k.gcnt
    let nst ← landCounts c k sfirst nf
    let per := if p.lay4 then 8 else 4
    let prev := (s + 2 ^ 32 - 1) % 2 ^ 32
    let sts ← if near then pure [] else stateFrames c k o (per * k.tiles) true
    sts.forM fmtZero
    let works ← if near then pure [] else framesAt c (k.wb s) (if k.half then k.tiles / 2 else k.tiles) true Region.isHbm
    let fin ← if near then pure [] else framesAt c (k.fb prev) nf false Region.isHbm
    fin.forM fmtZero
    let fout ← if near then pure [] else framesAt c (k.fb s) nf true Region.isHbm
    let gacc ← if k.gacc then do
        let (a, r) ← wrAddr c (bits (k.w 0x40) 41 2 * 4) 4
        need ((← get).near c a r) 0x02
        pure (some a)
      else pure none
    let hb := k.frame 0x50
    let flag ← if near then do
        wrCheck c hb (16896 * k.tiles + 8) (fun _ _ r => decide (r = .ddr))
        pure (some (← wrAddr c (hb + 16896 * k.tiles) 8).1)
      else pure none
    let b ← get
    need (sts.all (fun y => (b.peek y.1 y.2).all (fun h => decide (h.stamp.toNat = s ∨ h.stamp.toNat = prev)))) 0x04
    let ra ← if k.rvalid then do pure (← rdAddr c record).1 else pure 0
    takePin c k s ((grads ++ stats).map (fun y => y.1 / 8192))
      (ra, if k.rvalid then 16 + 8 * max (first + k.gcnt) (sfirst + nf) else 0)
    blockPut (k.pa + 0x58) 4 0
    let sc ← runScale k gsc ns grads
    let u : RunCx := {
      k := k, p := p, x := x, s := s, sc := sc, ns := ns, nst := nst, needQ := k.gacc, per := per, grads := grads, stats := stats,
      fin := fin, fout := fout, sts := sts, works := works }
    let id ← begin' c.key c.ctx .run
    let r ← attempt ((List.range k.tiles).foldlM (fun (q : Val) t => do
      pure (q.add (← if near then nearTile c u t else runTile c u id t))) Val.zero)
    match r with
    | .error e =>
      finish id
      throw e
    | .ok q =>
      let b ← get
      let mir := k.mirror && !near
      let mine (m : MirFrame) : Bool := sts.any (fun y => decide (y.1 = m.pa))
      let un := b.col.unacked.map (fun m => if mine m then { m with run := id } else m)
      let run : RunSt := {
        id := id, slot := c.key, ctx := c.ctx, part := c.part, die := c.die, blk := k.pa, step := s, flag := flag,
        gacc := gacc.map (fun a => (a, toF32 q)), sobj := if k.sig then some (k.sobj, word (bits (k.w 0x48) 49 18)) else none,
        acked := !mir || (b.mirrorOn && !un.any (fun m => decide (m.run = id))), unmir := mir && !b.mirrorOn }
      set { b with runs := b.runs ++ [run], col := if mir then { b.col with unacked := un } else b.col }

/-- R412: what a RUN does before it can begin on a Staged object: wait while it rises, or ask for its promotion.  Answers
the package in which the member waits, or the one in which it issues, with the cause of a refused promotion. -/
def runGate (k : Nat) (w x : Word) (b : Blk) : Except Blk (Blk × Nat) :=
  let c := b.cx k w
  let wait (id : BitVec 32) (t : Blk) : Blk :=
    t.setSlot k { t.slot k with latched := some (c.pc, [w, x]), lastPc := c.pc, lastW := w, wait := .runFast id, waitFrom := t.aon.elapsed }
  match (do
      let s ← readShard c (b.sreg c.key (bits w 9 5)).toNat
      need s.ok 0x0A
      shardObj c s) b with
  | .error _ _ => .ok (b, 0)
  | .ok o _ =>
    if 2 ≤ o.uplace ∨ o.st = 2 then .ok (b, 0)
    else if o.st = 1 then .error (wait o.id b)
    else if o.uplace = 0 then
      match promote o.id o.owner o.version (.run k) b with
      | .error e t => .ok (t, e)
      | .ok none t => .error (wait o.id t)
      | .ok (some _) t => .ok (t, 0)
    else .ok (b, 0)

/-- R400: the encoding of UPD.RUN. -/
def runOk (w : Word) : Bool := wordOk w true (0, 0) && rsvdOk w [(47, 46), (45, 44), (9, 5), (4, 0)]

def execUpdRun (m : Member) (w x : Word) (s : State) : Host.Outcome State Fault Refusal :=
  s.upd (fun b =>
    let go (b : Blk) (e : Nat) : Blk := issue m w 7 0x01 (runOk w) (fun c => if e = 0 then updRun w x c else throw e) b
    match b.memberKey m with
    | none => b
    | some k =>
      if b.canIssue k && decide (bits w 63 60 = 7 ∧ bits w 59 54 = 1) && runOk w && (b.slot k).holds w then
        match runGate k w x b with
        | .error t => t
        | .ok (t, e) => go t e
      else go b 0)

/-- RUN_COMMIT (R411, R413, R450): the oldest RUN of a member completes: its Near flag is written, its pin is released and Q is
added; the signal and CSTEP follow at once, or when the partner has acknowledged. -/
def runCommit (m : Member) : Act Unit := do
  let b ← get
  match b.memberKey m with
  | none => pure ()
  | some k =>
    match b.runs.find? (fun r => decide (r.slot = k) && !r.waits) with
    | none => pure ()
    | some r =>
      if r.flag.isSome && b.hold then return ()
      let st ← Act.status (match r.flag with
        | some a => writePa ⟨some r.die⟩ a (natLe 8 r.step)
        | none => pure ())
      if st ≠ 0 then
        modify (fun b => { b with runs := b.runs.filter (fun y => decide (y.id ≠ r.id)) })
        finish r.id
        modify (fun b => if (b.slot k).bound && decide ((b.slot k).ctx = r.ctx) then b.raiseLast k st else b)
      else
        modify (fun b => {
          b with
          pins := b.pins.filter (fun p => !decide (p.blk = r.blk ∧ p.step = r.step)),
          runs := b.runs.map (fun y => if y.id = r.id then { y with waits := true } else y) })
        match r.gacc with
        | some (a, q) => quietly (do
            let bs ← readPa ⟨some r.die⟩ a 4
            writePa ⟨some r.die⟩ a (natLe 4 (toF32 ((ofF32 (leNat bs)).add (ofF32 q)))))
        | none => pure ()
        runSettle

def execRunCommit (m : Member) (s : State) : Host.Outcome State Fault Refusal := s.act (runCommit m)

/-! ### UPD.SNAP and UPD.UNPIN -/

/-- The queue pair of a snapshot: the instruction names none, so the lowest-numbered open one between the two partitions
(R555; log entry 45). -/
def snapQp (c : Cx) (g : Word) : Act Nat := do
  match (← get).xpt.qps.find? (fun nq => match nq.2 with
    | some q => q.err.isNone && decide (q.part = c.part ∧ q.peerPkg = gPkg g ∧ q.peerPart = gPart g)
    | none => false) with
  | some nq => pure nq.1
  | none => throw 0x02

/-- The frames of a snapshot of one weight tile (R215, R414). -/
def snapFrames (c : Cx) (f : Fmt) (v : Nat) (vals : List Val) : List Frame :=
  let n := if f = .fp32 then 2 else 1
  (List.range n).map (fun i =>
    ⟨c.header f false 0 false v, [], f.pack ((cutCols f.k i (chunk 64 64 vals)).map (fun y => (f.convert1 ⟨.rne, false, .floor⟩ 0 y).1))⟩)

/-- UPD.SNAP (R414, R415). -/
def updSnap (w x : Word) (c : Cx) : Act Unit := do
  let b ← get
  let v := (b.sreg c.key (bits w 4 0)).toNat % 2 ^ 32
  let f := (Fmt.ofCode (bits w 47 44)).getD .fp16
  need (decide (f = .fp32 ∨ f = .bf16) && decide (gOff x % 8192 = 0)) 0x0A
  let k ← readShard c (b.sreg c.key (bits w 9 5)).toNat
  if b.runBusy k.pa then throw notYet
  let o ← shardObj c k
  let lay4 := Config.snapPack4 (← fresh)
  let per := if lay4 then 8 else 4
  let sts ← stateFrames c k o (per * k.tiles) false
  let b ← get
  need (sts.all (fun y => (b.peek y.1 y.2).all (fun h => decide (h.stamp.toNat = v)))) 0x04
  let fld := if bit w 43 then 0 else 3
  remIssueOn (snapQp c x) c 0 ⟨false, false, false, false⟩ x .write 0 (do
    let (fs, st) ← (List.range k.tiles).foldlM (fun (acc : List Frame × Nat) t => do
      if acc.2 ≠ 0 then pure acc
      else
        match ← attempt (((sts.drop (per * t)).take per).mapM goodFrame) with
        | .error e => pure (acc.1, e)
        | .ok l =>
          let vals := l.flatMap (fun y => (packedField lay4 y.data fld).map (packedVal lay4 fld))
          pure (acc.1 ++ snapFrames c f v vals, 0)) ([], 0)
    pure (List.zipWith (fun i y => (({ op := 0x01, cls := 6, len := 8768, frame := some y, addr := x + word (8192 * i) } : Packet), none))
      (List.range fs.length) fs, st))

def execUpdSnap (m : Member) (w x : Word) (s : State) : Host.Outcome State Fault Refusal :=
  s.upd (issue m w 7 0x02 (wordOk w true (0, 0) && rsvdOk w [(47, 44), (43, 43), (9, 5), (4, 0)]) (updSnap w x))

/-- UPD.UNPIN (R408). -/
def updUnpin (w : Word) (c : Cx) : Act Unit := do
  let b ← get
  let va := (b.sreg c.key (bits w 9 5)).toNat
  let s := (b.sreg c.key (bits w 4 0)).toNat % 2 ^ 32
  need (va % 128 = 0) 0x0A
  let (a, _) ← engineAddr ⟨some c.die⟩ (← translate c.part va .rd)
  let mine (p : Pin) : Bool := decide (p.blk = a ∧ p.step = s ∧ (c.part = p.part ∨ c.part = 0))
  need (b.pins.any mine) 0x0A
  modify (fun b => { b with pins := b.pins.filter (fun p => !mine p) })

def execUpdUnpin (m : Member) (w : Word) (s : State) : Host.Outcome State Fault Refusal :=
  s.upd (issue m w 7 0x03 (wordOk w false (0, 0) && rsvdOk w [(9, 5), (4, 0)]) (updUnpin w))

end Sys2Proof.Machine
end

