-- ==== Sys2Proof/Machine/Wfg.lean ====
section
/-! DEFINITION. The wait-for graph and the trace drain (17_counters_traces_hangs.md R752 to R760).  The places that R760 does
not give to the fields of the dump are the model's (log entry 49). -/
namespace Sys2Proof.Machine

def modDbg (f : DbgSt → DbgSt) : Act Unit := modify (fun b => { b with dbg := f b.dbg })

/-! ### Samples and traces (R752, R754) -/

/-- COUNTER_SAMPLE (R752): a record of every bound slot; `sampleSlot` writes only while CNT_CTRL.EN = 1. -/
def sampleAll : Act Unit := do (← get).slots.forM (fun ks => quietly (sampleSlot ks.1 false))

def execCounterSample (s : State) : Host.Outcome State Fault Refusal := s.act sampleAll
def execCntCmdSample (src : Src) (s : State) : Host.Outcome State Fault Refusal := s.regw src Reg.cntCmd (word (1 <<< 63)) sampleAll

/-- TRACE_DRAIN (R750, R754): the buffer of a die is emptied into the rings; when space has returned the die writes the number of
records it discarded. -/
def traceDrain (d : Nat) : Act Unit := do
  let b ← get
  let rs := sget [] b.dbg.trace d
  let gap := sget 0 b.dbg.gap d
  modDbg (fun g => { g with trace := sset [] g.trace d [], gap := sset 0 g.gap d 0 })
  rs.forM (fun r => recordOut r.part true (fun _ => wordsBytes r.words))
  if gap ≠ 0 then
    modify (fun b => b.traceAdd d ⟨0, [word b.now, word (recWord1 0x0F (b.fld Reg.aonTimeCtrl 63 63) d 0 0 0 0), 0, word gap]⟩)

def execTraceDrain (die : Fin 2) (s : State) : Host.Outcome State Fault Refusal := s.act (traceDrain die.val)

/-! ### Nodes and edges (R759) -/

/-- A member as a node. -/
def memberNode (k : Nat) : WfgNode := ⟨0, k, 0⟩
def resNode (kind id : Nat) : WfgNode := ⟨kind, 0, id⟩

/-- The member slots of a context. -/
def Blk.streamSlots (b : Blk) (n : Nat) : List Nat :=
  (b.slots.filter (fun ks => ks.2.bound && decide (ks.2.ctx.toNat = n))).map (·.1)

/-- The age of a FROM edge: R759 names none (log entry 49). -/
def freeAge : Act Nat := do pure ((Config.freeWord (← fresh)).toNat % 2 ^ 32)

/-- The FROM edges of a resource, to the nodes that should release it. -/
def fromEdges (r : WfgNode) (to' : List WfgNode) : Act (List WfgEdge) :=
  to'.mapM (fun t => do pure ⟨r, t, false, ← freeAge⟩)

/-- The edges of one waiting slot. -/
def slotEdges (k : Nat) : Act (List WfgEdge) := do
  let b ← get
  let s := b.slot k
  let waits (r : WfgNode) : WfgEdge := ⟨memberNode k, r, true, (b.aon.elapsed - s.waitFrom) / 1000 % 2 ^ 32⟩
  let edge (r : WfgNode) (to' : List WfgNode) : Act (List WfgEdge) := do pure (waits r :: (← fromEdges r to'))
  let object (id : BitVec 32) : Act (List WfgEdge) := do
    let up := (b.residOf id true).isSome
    edge (resNode 2 id.toNat) (if up then [resNode 7 0] else [])
  if !s.bound then return []
  match s.wait with
  | .none => pure []
  | .sync o _ =>
    let named := (b.slots.filter (fun ks => ks.2.bound && ks.2.fin.any (fun f => decide (f.1 = o)))).map (·.1)
    let last := match sget 0 b.dbg.signaller o with
      | 0 => []
      | c + 1 => b.streamSlots c
    edge (resNode 1 o) ((named ++ last).eraseDups.map memberNode)
  | .fence id _ _ => object id
  | .runFast id => object id
  | .credit q =>
    let n := keyDie k * 64 + q
    let peer ← attempt (do
      let ws ← sqWords n
      match (← get).qp (bits (nth ws 0 0) 47 32) with
      | some x => pure x.peerPkg
      | none => throw 0x08)
    edge (resNode 3 n) (match peer with
      | .ok p => [resNode 8 p]
      | .error _ => [])
  | .scope c =>
    let es := if c.testBit 3 || c.testBit 5 then
        b.engines.filter (fun e => e.2.any (fun x => decide (x.comp.slot = k)))
      else []
    let qs := if c.testBit 4 || c.testBit 5 then
        b.xpt.qps.filter (fun x => x.2.any (fun q => q.cmds.any (fun y => decide (y.comp.slot = k))))
      else []
    let a ← es.mapM (fun e => edge (resNode 7 e.1) ((e.2.map (fun x => x.comp.slot)).eraseDups.map memberNode))
    let q ← qs.mapM (fun x => edge (resNode 4 (x.1 ||| (x.2.map (·.una)).getD 0 <<< 32)) [resNode 8 ((x.2.map (·.peerPkg)).getD 0)])
    pure (a.flatten ++ q.flatten)

/-- One pass of the scan (R758). -/
def wfgPass : Act (List WfgEdge) := do
  let es ← ((← get).slots.map (·.1)).mapM slotEdges
  pure es.flatten

/-- R757: a trigger begins a graph, or is counted in MERGED while one is being assembled.  TRIGGER: 1 a long wait, 2 a faulting
wait, 3 DUMP, 4 a management request (log entry 49). -/
def wfgTrigger (trigger k : Nat) : Act Unit := do
  if (← get).dbg.wfg.isSome then countFld Reg.dbgWfgSts 61 48 1
  else
    let first ← wfgPass
    modify (fun b => { b with dbg := { b.dbg with wfg := some ⟨trigger, k, b.now, first⟩ } })
    setFld Reg.dbgWfgSts 63 63 1

/-- HANG_TIMEOUT (R757). -/
def hangTimeout (m : Member) : Act Unit := do
  let b ← get
  match b.memberKey m with
  | none => pure ()
  | some k => if (b.slot k).bound && (b.slot k).wait != .none && bit (b.reg Reg.dbgWfgCtrl) 62 then wfgTrigger 1 k

def execHangTimeout (m : Member) (s : State) : Host.Outcome State Fault Refusal := s.act (hangTimeout m)

def execWfgDump (src : Src) (s : State) : Host.Outcome State Fault Refusal :=
  s.regw src Reg.dbgWfgCtrl (setBit (s.blk.reg Reg.dbgWfgCtrl) 63 true) (wfgTrigger 3 0)

/-! ### The dump (R760) -/

/-- The nodes that are reached from `ns` in at most `fuel` steps along edges. -/
def reach (es : List WfgEdge) : Nat → List WfgNode → List WfgNode
  | 0, ns => ns
  | fuel + 1, ns => reach es fuel ((ns ++ (es.filter (fun e => ns.contains e.src)).map (·.dst)).eraseDups)

/-- The nodes that a node can come back to along edges from it. -/
def cycleOf (es : List WfgEdge) (n : WfgNode) : List WfgNode :=
  let after (m : WfgNode) : List WfgNode := reach es es.length ((es.filter (fun e => e.src == m)).map (·.dst))
  (after n).filter (fun m => (after m).contains n)

/-- CYCLES: the groups of nodes that reach one another (log entry 49). -/
def cycles (es : List WfgEdge) (ns : List WfgNode) : Nat :=
  (ns.filter (fun n => (cycleOf es n).contains n && decide ((ns.find? (fun m => (cycleOf es n).contains m)) = some n))).length

/-- A node record. -/
def Blk.nodeBytes (b : Blk) (n : WfgNode) : List Byte :=
  let s := b.slot n.key
  if n.kind = 0 then
    wordsBytes [0, word (recWord1 0 0 (keyDie n.key) s.log (n.key % 2) s.part.toNat s.ctx.toNat), word s.lastPc.toNat, 0]
  else wordsBytes [0, word (n.kind <<< 56), 0, word n.res]

/-- An edge record. -/
def edgeBytes (ns : List WfgNode) (e : WfgEdge) : List Byte :=
  wordsBytes [word (ns.idxOf e.src % 65536 ||| (ns.idxOf e.dst % 65536) <<< 16 ||| b2n (!e.waits) <<< 32), word e.age]

/-- WFG_WRITTEN (R758, R760): the second pass, the dump, and event 0x13. -/
def wfgWritten : Act Unit := do
  match (← get).dbg.wfg with
  | none => pure ()
  | some g =>
    let second ← wfgPass
    let es := second.filter (fun e => g.first.any (fun f => f.src == e.src && f.dst == e.dst && f.waits == e.waits))
    let ns := (es.flatMap (fun e => [e.src, e.dst])).eraseDups
    let b ← get
    let size := b.fld Reg.dbgWfgBase 63 48 * 65536
    let n := cycles es ns
    modDbg (fun x => { x with wfg := none })
    setFld Reg.dbgWfgSts 63 63 0
    setFld Reg.dbgWfgSts 47 32 n
    if size ≠ 0 then
      let keptN := ns.take ((size - 64) / 32)
      let keptE := if keptN.length = ns.length then es.take ((size - 64 - 32 * ns.length) / 16) else []
      let seq := b.fld Reg.dbgWfgSts 31 0 + 1
      let m := b.slot g.member
      let head := [word g.start, word b.now,
        word (g.trigger <<< 56 ||| keyDie g.member <<< 6 ||| m.log <<< 1 ||| g.member % 2),
        word (keptN.length % 65536 ||| (keptE.length % 65536) <<< 16 ||| (n % 65536) <<< 32), word seq, 0, 0, 0]
      setFld Reg.dbgWfgSts 62 62 (b2n (decide (keptN.length < ns.length ∨ keptE.length < es.length)))
      setFld Reg.dbgWfgSts 31 0 seq
      quietly (writePa ⟨none⟩ (b.fld Reg.dbgWfgBase 47 16 * 65536)
        (wordsBytes head ++ keptN.flatMap b.nodeBytes ++ keptE.flatMap (edgeBytes ns)))
      post { code := 0x13, sev := 1, d0 := seq }

def execWfgWritten (s : State) : Host.Outcome State Fault Refusal := s.act wfgWritten

end Sys2Proof.Machine
end

