-- ==== Sys2Proof/Machine/Stream.lean ====
section
/-! DEFINITION. Streams: binding, doorbells, fetching, ends, aborts and faults, foreground and backfill
(03_plynax_programs.md R120 to R137, R144, R147, R151, R156, R163 to R174, R786, R787). -/
namespace Sys2Proof.Machine

/-! ### Members of a stream -/

/-- The slots bound to a context. -/
def Blk.members (b : Blk) (n : Nat) : List Nat :=
  (b.slots.filter (fun ks => ks.2.bound && decide (ks.2.ctx.toNat = n))).map (·.1)

/-- Write a word of a stream descriptor (R785). -/
def ctxPut (n off : Nat) (v : Word) : Act Unit := do tableWrite 0 ((← get).ctxAddr n + off) v n

/-- The address of a word of a descriptor as the package reads it. -/
def ctxWord (n off : Nat) : Act Word := do readWord ((← get).ctxAddr n + off)

/-- Set STATE (R124). -/
def ctxState (n st : Nat) : Act Unit := do
  match ← attempt (ctxWord n 0) with
  | .ok w => ctxPut n 0 (setBits w 61 58 st)
  | .error _ => post { code := 0x14, sev := 2, d0 := 0, d1 := (← get).ctxAddr n, d2 := n }

/-- R137: write HEAD back: when it has advanced by a quarter of the ring, when every member waits for a doorbell (`idle`),
and when STATE leaves 0x1 (`all`). -/
def headBack (n : Nat) (idle all : Bool) : Act Unit := do
  let b ← get
  let ks := b.members n
  match ks.head? with
  | none => pure ()
  | some k =>
    let s := b.slot k
    let adv (j : Nat) : Int := diff32 (b.slot j).fetch.toNat s.headWb.toNat
    let m := ks.foldl (fun (a : Int) j => min a (adv j)) (adv k)
    if (all && decide (m ≠ 0)) || (idle && decide (0 < m)) || decide ((2 ^ s.ringLog / 4 : Nat) ≤ m) then
      let h : BitVec 32 := s.headWb + BitVec.ofInt 32 m
      ks.forM (fun j => modSlot j (fun s => { s with headWb := h }))
      ctxPut n 0x10 (word (s.tail.toNat <<< 32 ||| h.toNat))

/-! ### Fetching (R132, R133, R139 to R144, R147) -/

/-- R147: the back edges taken where the fetch index stands at the end of the innermost loops. -/
def Slot.backEdge : Nat → Slot → Slot
  | 0, s => s
  | fuel + 1, s =>
    let ls := (List.zip (List.range 8) s.lc.toList).filter (fun l => l.2.active)
    match ls.foldl (fun (a : Option (Nat × Loop)) l => match a with
        | some x => if x.2.depth < l.2.depth then some l else a
        | none => some l) none with
    | none => s
    | some (i, l) =>
      if l.stop ≠ s.fetch then s
      else if l.idx + 1 < l.count then { s with fetch := l.start, lc := s.lc.setIfInBounds i { l with idx := l.idx + 1 } }
      else Slot.backEdge fuel { s with lc := s.lc.setIfInBounds i {} }

/-- R132, R144: fetch the word at an index of the ring. -/
def fetchRing (c : Cx) (i : BitVec 32) : Act Word := do
  let s := (← get).slot c.key
  let pa ← translate c.part ((s.ringBase + 8 * (i.toNat % 2 ^ s.ringLog)) % 2 ^ 42) .ex
  let b ← get
  let (a, r) ← engineAddr ⟨some c.die⟩ ((b.slot c.key).redirect pa)
  need (b.shareAt c.bf a r) 0x02
  let (bs, st) ← readLinesAt a 8 r
  need (st = 0) st
  pure (word (leNat bs))

/-- R142, R143: the opcodes that each class defines. -/
def classDefines (cls op : Nat) : Bool :=
  match cls with
  | 0 => decide (op ≤ 7)
  | 1 => decide (op ≤ 6 ∧ op ≠ 4)
  | 2 => decide (op ≤ 4)
  | 3 => decide (op ≤ 4)
  | 4 => decide (op ≤ 0x12)
  | 5 => decide (op ≤ 4)
  | 6 => ([0, 1, 2, 3, 8, 9, 0xA, 0xB, 0xC, 0x10, 0x11]).contains op
  | 7 => decide (op ≤ 3)
  | _ => false

/-- R139 to R143: may the word begin an instruction? -/
def firstOk (w : Word) : Bool :=
  classDefines (bits w 63 60) (bits w 59 54) && decide (bits w 52 48 ≤ 24) && (decide (bits w 63 60 = 6) || decide (bits w 52 48 = 0))

/-- The number of words of an instruction (R140). -/
def wordsOf (w : Word) : Nat := 1 + b2n (bit w 53) + bits w 52 48

/-- Does a running slot wait for a doorbell (R133)?  `n` is the length of its next instruction where that is known. -/
def Slot.starved (s : Slot) (n : Nat) : Bool :=
  (s.st == .ended) || (s.st == .run && s.latched.isNone && (s.wait == .none) && decide ((s.tail - s.fetch).toNat < n))

/-- A member whose next instruction is not wholly before TAIL waits; when all wait, HEAD is written back (R137). -/
def starve (n len k : Nat) : Act Unit := do
  let b ← get
  headBack n ((b.members n).all (fun j => decide (j = k) || (b.slot j).starved len)) false

/-- INSTRUCTION_FETCH (R132, R133, R144, R147): the words of the next instruction.  An undefined class or opcode, and a body
that ends inside the instruction, fault here. -/
def instructionFetch (m : Member) : Act Unit := do
  let b ← get
  match b.memberKey m with
  | none => pure ()
  | some k =>
    let s := (b.slot k).backEdge 8
    let n := s.ctx.toNat
    if !s.bound || s.st != .run || s.wait != .none || s.latched.isSome || (b.core (k / 2)).fenced || (b.core (k / 2)).moving.isSome || b.dieOut (keyDie k) then pure ()
    else
      modSlot k (fun _ => s)
      let c := (← get).cx k 0
      let fault (e : Nat) (pc : BitVec 32) (cls op : Nat) : Act Unit := modify (·.raise k e pc cls op)
      if s.fetch = s.tail then starve n 1 k
      else
        match ← attempt (fetchRing c s.fetch) with
        | .error e => fault e s.fetch 0 0
        | .ok w =>
          let cls := bits w 63 60
          let op := bits w 59 54
          let len := wordsOf w
          if !firstOk w then fault 0x0A s.fetch cls op
          else if (s.tail - s.fetch).toNat < len then starve n len k
          else
            match ← attempt ((List.range (len - 1)).mapM (fun i => fetchRing c (s.fetch + BitVec.ofNat 32 (i + 1)))) with
            | .error e => fault e s.fetch cls op
            | .ok ws =>
              match s.lc.toList.find? (fun l => l.active && decide (0 < (l.stop - s.fetch).toNat ∧ (l.stop - s.fetch).toNat < len)) with
              | some l => fault 0x0A l.pc 0 2
              | none =>
                modSlot k (fun s => { s with latched := some (s.fetch, w :: ws), fetch := s.fetch + BitVec.ofNat 32 len })
                headBack n false false

def execInstructionFetch (m : Member) (s : State) : Host.Outcome State Fault Refusal := s.act (instructionFetch m)

/-! ### Stopping -/

/-- The members issue nothing more (R130, R172). -/
def stopMembers (n : Nat) : Act Unit :=
  modify (fun b => { b with slots := b.slots.map (fun ks =>
    if ks.2.bound ∧ ks.2.ctx.toNat = n ∧ ks.2.st = .run then (ks.1, { ks.2 with st := .stop, wait := ks.2.wait.stopped }) else ks) })

/-- R130, R173: what the stream has queued and not yet started completes with 0x01. -/
def flushStream (n : Nat) : Act Unit := do
  ((← get).members n).forM (fun k => do
    flushQueued k (BitVec.ofNat 16 n)
    copyFlush k (BitVec.ofNat 16 n)
    collFlush k (BitVec.ofNat 16 n))

/-- Have all members stopped and the instructions they issued completed?  A stop does not wait for placement commands. -/
def Blk.quiet (b : Blk) (n : Nat) (stop : Bool) : Bool :=
  let ks := b.members n
  ks.all (fun k => (b.slot k).st != .run) &&
  b.outst.all (fun o => !(ks.contains o.slot && decide (o.ctx.toNat = n)) || (stop && o.kind == .place)) &&
  b.sigs.all (fun g => !(g.slot.any (fun k => ks.contains k)))

/-- R201, R308, R313: what STATE leaving 0x1 does to a slot: live accumulator tiles are freed, redirect entries released,
and a fence that still waited is no longer counted. -/
def leaveSlot (k st : Nat) : Act Unit := do
  let b ← get
  let s := b.slot k
  modCore (k / 2) (fun c => { c with acc := c.acc.filter (fun a => !((a.2.st == .live) &&
    (if keyBf k then decide (6 ≤ a.1 % 8) else !b.bfEn (keyDie k) (keyPhys k) || decide (a.1 % 8 < 6)))) })
  match s.wait with
  | .fence id _ _ => quietly (do
      let o ← readObj id
      putObj { o with waiters := o.waiters - 1 })
  | _ => pure ()
  modSlot k (fun s => { s with stt := st, wait := .none, redirects := [], st := if st = 2 then .ended else .stop })
  if st ≠ 2 then discardLandings k false

/-- STATE leaves 0x1 (R137, R173). -/
def leaveStream (n st : Nat) : Act Unit := do
  headBack n false true
  ((← get).members n).forM (fun k => leaveSlot k st)
  ctxState n st

/-- R173, R174, R178: record the fault of a stream whose members have stopped. -/
def recordFault (n : Nat) : Act Unit := do
  let b ← get
  let fs := (b.members n).filterMap (fun k => ((b.slot k).flt).map (fun f => (k, f)))
  match fs.foldl (fun (a : Option (Nat × FaultInfo)) x => match a with
      | none => some x
      | some y => if x.2.pc < y.2.pc ∨ (x.2.pc = y.2.pc ∧ (b.slot x.1).log < (b.slot y.1).log) then some x else a) none with
  | none => pure ()
  | some (k, f) =>
    let w := 0x0C <<< 56 ||| f.cause <<< 48 ||| (b.slot k).log <<< 44 ||| f.pc.toNat
    ctxPut n 0x38 (word w)
    ctxPut n 0x40 (word (f.cls <<< 60 ||| f.op <<< 54 ||| f.layer.toNat <<< 16 ||| f.oper.toNat))
    ctxPut n 0x48 (word f.time)
    leaveStream n 3
    let off := Reg.coreFault (keyDie k) (keyPhys k)
    if !bit ((← get).reg off) 63 then
      setReg off (word (1 <<< 63 ||| (k % 2) <<< 62 ||| f.cause <<< 48 ||| n <<< 32 ||| f.pc.toNat))
    modify (fun b => b.trace k 7 f.pc w)
    sendMsi (keyDie k)

/-- R130: an aborted stream ends; one of whose instructions has faulted ends faulted. -/
def endAborted (n : Nat) : Act Unit := do
  let b ← get
  if (b.members n).any (fun k => (b.slot k).flt.isSome) then recordFault n
  else
    match ← attempt (ctxWord n 0x38) with
    | .ok w => ctxPut n 0x38 (setBits w 63 56 1)
    | .error _ => ctxPut n 0x38 (word (1 <<< 56))
    leaveStream n 4

/-- R129, R752: the slots of a stream are freed and its context is unpinned. -/
def freeSlots (n : Nat) : Act Unit := do
  ((← get).members n).forM (fun k => do
    quietly (sampleSlot k false)
    modSlot k (fun s => { s with bound := false, st := .idle, stt := 0, wait := .none, latched := none }))
  ctxState n 0

/-- STREAM_FAULT_RECORD (R173). -/
def streamFaultRecord (n : Nat) : Act Unit := do
  let b ← get
  let ks := b.members n
  if ks.any (fun k => (b.slot k).stt = 1 ∧ (b.slot k).flt.isSome) && b.ctxCmds.all (fun c => decide (c.2.1 ≠ n)) then
    stopMembers n
    flushStream n
    if (← get).quiet n true then recordFault n

def execStreamFaultRecord (ctx : BitVec 16) (s : State) : Host.Outcome State Fault Refusal := s.act (streamFaultRecord ctx.toNat)

/-- STREAM_FAULT (R171): the instruction that a member is about to issue, or issued last, raises an error. -/
def streamFault (m : Member) (cause : BitVec 8) (b : Blk) : Blk :=
  match b.memberKey m with
  | none => b
  | some k =>
    let s := b.slot k
    if !s.bound || decide (s.stt ≠ 1) then b
    else
      match s.latched with
      | some (pc, w :: _) => b.raise k cause.toNat pc (bits w 63 60) (bits w 59 54)
      | _ => b.raiseLast k cause.toNat

def execStreamFault (m : Member) (cause : BitVec 8) (s : State) : Host.Outcome State Fault Refusal := s.upd (streamFault m cause)

/-- STREAM_END (R151). -/
def streamEnd (n : Nat) : Act Unit := do
  let b ← get
  let ks := b.members n
  match ks.head? with
  | none => pure ()
  | some k =>
    if ks.all (fun j => (b.slot j).stt = 1 ∧ (b.slot j).st = .ended ∧ (b.slot j).flt.isNone) && b.quiet n false &&
        b.ctxCmds.all (fun c => decide (c.2.1 ≠ n)) then
      leaveStream n 2
      match (b.slot k).fin with
      | some (o, v) => giveSignal (b.slot k).part.toNat o v n
      | none => pure ()

def execStreamEnd (ctx : BitVec 16) (s : State) : Host.Outcome State Fault Refusal := s.act (streamEnd ctx.toNat)

/-- WAIT_LIMIT_EXPIRY (R156); while a core moves its timers stand still (R646).  The fault
triggers a wait-for graph (R757). -/
def waitLimitExpiry (m : Member) : Act Unit := do
  let b ← get
  match b.memberKey m with
  | none => pure ()
  | some k =>
    match (b.slot k).wait with
    | .sync o v => if (b.core (k / 2)).moving.isNone ∧ (b.slot k).st = .run ∧ (b.slot k).waitLimit ≠ 0 ∧ !syncOk (b.syncVal o) v then
        modify (·.raiseLast k 0x07)
        wfgTrigger 2 k
    | _ => pure ()

def execWaitLimitExpiry (m : Member) (s : State) : Host.Outcome State Fault Refusal := s.act (waitLimitExpiry m)

/-! ### Context commands (R126 to R131, R165, R787) -/

/-- The reserved bits of a stream descriptor are zero (R124). -/
def descOk (ws : List Word) : Bool :=
  let g := nth ws (0 : Word)
  rsvdExt (g 0) [(63, 62), (61, 58), (57, 48), (40, 40), (15, 0)] && rsvdExt (g 1) [(41, 12), (5, 0)] &&
  rsvdExt (g 4) [(63, 63), (45, 32), (31, 0)] && rsvdExt (g 5) [(31, 0)] &&
  rsvdExt (g 7) [(63, 56), (55, 48), (47, 44), (31, 0)] && rsvdExt (g 8) [(63, 60), (59, 54), (31, 0)] &&
  (ws.drop 10).all (fun w => decide (w = 0))

/-- Zero a range of a store: data, headers and sideband. -/
def Blk.zeroRange (b : Blk) (a n : Nat) : Blk :=
  { b with mem := { b.mem with
      cells := b.mem.cells.filter (fun c => !decide (a ≤ c.1 ∧ c.1 < a + n)),
      fmeta := b.mem.fmeta.filter (fun f => !decide (a ≤ f.1 * 8192 ∧ f.1 * 8192 < a + n)) } }

/-- R131, R163, R165: zero a slot's share of its core's local store and accumulator store. -/
def Blk.clearShare (b : Blk) (k : Nat) : Blk :=
  let d := keyDie k
  let p := keyPhys k
  let en := b.bfEn d p
  let b := if keyBf k then b.zeroRange (localBase d p + 0x240000) 0xC0000 else b.zeroRange (localBase d p) (if en then 0x240000 else 0x300000)
  b.setCore (k / 2) { b.core (k / 2) with acc := (b.core (k / 2)).acc.filter (fun a =>
    !(if keyBf k then decide (6 ≤ a.1 % 8) else !en || decide (a.1 % 8 < 6))) }

/-- R138: a slot as a bind loads it.  Landings and persistent tiles of the same partition stay (R202, R275). -/
def loadSlot (ws : List Word) (n l gang : Nat) (s : Slot) : Slot :=
  let g := nth ws (0 : Word)
  let regs := (((Vector.replicate 32 (0 : Word)).setIfInBounds 1 (word (popcount gang l))).setIfInBounds 2 (word (popcount gang 16))).setIfInBounds 3 (g 6)
  let head := BitVec.ofNat 32 (bits (g 2) 31 0)
  { bound := true, ctx := BitVec.ofNat 16 n, part := BitVec.ofNat 10 (bits (g 0) 57 48), everBound := true, log := l, s := regs,
    seed := g 3, fetch := head, tail := head, headWb := head, st := .run, waitLimit := bits (g 5) 31 0, stt := 1,
    ringBase := bits (g 1) 41 12 * 4096, ringLog := bits (g 1) 5 0,
    fin := if bit (g 4) 63 then some (bits (g 4) 45 32, word (bits (g 4) 31 0)) else none, lands := s.lands }

/-- BIND_FG and BIND_BF (R126 to R128, R131, R165). -/
def bindStream (bf : Bool) (d n : Nat) : Act Unit := do
  let b ← get
  let ws ← readWords (b.ctxAddr n) 32
  let g := nth ws (0 : Word)
  let gang := bits (g 0) 15 0
  let part := bits (g 0) 57 48
  need (decide (bits (g 0) 63 62 = 1 ∧ bits (g 0) 61 58 = 0 ∧ bits (g 0) 40 40 = d ∧ gang ≠ 0 ∧ 9 ≤ bits (g 1) 5 0 ∧ bits (g 1) 5 0 ≤ 20) &&
    (b.members n).isEmpty && descOk ws) 0x0A
  let ls := bitsOf gang 16
  let ks := ls.filterMap (fun l => (b.physOf d l).map (fun p => slotKey d p bf))
  need (b.partOn part && decide (ks.length = ls.length) && !b.dieOut d && ls.all (fun l => !b.start.noBind.contains (d, l)) &&
    ks.all (fun k => !(b.slot k).bound && (!bf || b.bfEn (keyDie k) (keyPhys k))) &&
    (!bit (g 4) 63 || b.ownsSync part (bits (g 4) 45 32))) 0x02
  need (b.pinnedCtxs d < 4096) 0x09
  need (← makeRoom d) 0x09
  (List.zip ls ks).forM (fun lk => do
    let s := (← get).slot lk.2
    if s.everBound && decide (s.part.toNat ≠ part) then
      discardLandings lk.2 true
      modify (·.clearShare lk.2)
    modSlot lk.2 (loadSlot ws n lk.1 gang))
  let head := bits (g 2) 31 0
  ctxPut n 0x10 (word (head <<< 32 ||| head))
  ctxPut n 0x38 (setBits (g 7) 63 56 0)
  ctxPut n 0 (setBits (g 0) 61 58 1)

/-- The end of a context command (CORE_CTX_STS). -/
def ctxDone (d n st : Nat) : Act Unit := setReg (Reg.coreCtxSts d) (word (st <<< 48 ||| n))

/-- Run a context command: ignored while one executes. -/
def ctxCommand (d n : Nat) (body : Act Unit) : Act Unit := do
  if !bit ((← get).reg (Reg.coreCtxSts d)) 63 then
    let st ← Act.status body
    if st = notYet then setReg (Reg.coreCtxSts d) (word (1 <<< 63 ||| n)) else ctxDone d n st

/-- The word that CORE_CTX_CMD takes. -/
def ctxCmdWord (cmd n : Nat) : Word := word (cmd <<< 60 ||| n)

def execBindFg (src : Src) (die : Fin 2) (ctx : BitVec 16) (s : State) : Host.Outcome State Fault Refusal :=
  s.regw src (Reg.coreCtxCmd die.val) (ctxCmdWord 1 ctx.toNat) (ctxCommand die.val ctx.toNat (bindStream false die.val ctx.toNat))
def execBindBf (src : Src) (die : Fin 2) (ctx : BitVec 16) (s : State) : Host.Outcome State Fault Refusal :=
  s.regw src (Reg.coreCtxCmd die.val) (ctxCmdWord 2 ctx.toNat) (ctxCommand die.val ctx.toNat (bindStream true die.val ctx.toNat))

/-- ABORT and UNBIND (R129, R130, R787): a bound stream stops, and the command completes when it has ended. -/
def stopCommand (unbind : Bool) (d n : Nat) : Act Unit := do
  let b ← get
  let w ← ctxWord n 0
  let st := match (b.members n).head? with
    | some k => (b.slot k).stt
    | none => bits w 61 58
  need (decide (bits w 63 62 = 1 ∧ st ≠ 0 ∧ bits w 40 40 = d)) 0x0A
  if st ≠ 1 then (if unbind then freeSlots n else pure ())
  else
    stopMembers n
    flushStream n
    modify (fun b => { b with ctxCmds := b.ctxCmds ++ [(d, n, unbind)] })
    throw notYet

def execUnbind (src : Src) (die : Fin 2) (ctx : BitVec 16) (s : State) : Host.Outcome State Fault Refusal :=
  s.regw src (Reg.coreCtxCmd die.val) (ctxCmdWord 3 ctx.toNat) (ctxCommand die.val ctx.toNat (stopCommand true die.val ctx.toNat))
def execAbort (src : Src) (die : Fin 2) (ctx : BitVec 16) (s : State) : Host.Outcome State Fault Refusal :=
  s.regw src (Reg.coreCtxCmd die.val) (ctxCmdWord 4 ctx.toNat) (ctxCommand die.val ctx.toNat (stopCommand false die.val ctx.toNat))

/-- ABORT_COMPLETE (R130); an abort that a TEARDOWN asked for (R619) has no command of its own, and die 2 in its record. -/
def abortComplete (n : Nat) : Act Unit := do
  let b ← get
  match b.ctxCmds.find? (fun c => decide (c.2.1 = n)) with
  | none => pure ()
  | some (d, _, unbind) =>
    flushStream n
    if (← get).quiet n true then
      modify (fun b => { b with ctxCmds := b.ctxCmds.filter (fun c => decide (c.2.1 ≠ n)) })
      endAborted n
      if unbind then freeSlots n
      if d < 2 then ctxDone d n 0

def execAbortComplete (ctx : BitVec 16) (s : State) : Host.Outcome State Fault Refusal := s.act (abortComplete ctx.toNat)

/-! ### Doorbell pages (R134, R135, R618) -/

/-- A rejected doorbell or signal of a partition's page. -/
def rejected (p : Nat) : Act Unit := countFld (Reg.prtDbrej p) 31 0 1

/-- PRT_DOORBELL (R134). -/
def prtDoorbell (p : Nat) (v : Word) : Act Unit := do
  let b ← get
  let n := bits v 15 0
  let tail := bits v 63 32
  let ks := b.members n
  let ok := match ks.head? with
    | none => false
    | some k =>
      let s := b.slot k
      decide (s.stt = 1 ∧ s.part.toNat = p ∧ (tail + 2 ^ 32 - s.headWb.toNat) % 2 ^ 32 ≤ 2 ^ s.ringLog) && b.partOn p
  if !ok then rejected p
  else
    ks.forM (fun k => modSlot k (fun s => { s with tail := BitVec.ofNat 32 tail }))
    let h := match ks.head? with
      | some k => (b.slot k).headWb.toNat
      | none => 0
    ctxPut n 0x10 (word (tail <<< 32 ||| h))

def execPrtDoorbell (page : BitVec 10) (v : Word) (s : State) : Host.Outcome State Fault Refusal := s.act (prtDoorbell page.toNat v)

/-- PRT_SIGNAL (R135). -/
def prtSignal (p : Nat) (v : Word) : Act Unit := do
  let b ← get
  let o := bits v 45 32
  if b.partOn p && b.ownsSync p o then set (b.addSync o (word (bits v 31 0)))
  else rejected p

def execPrtSignal (page : BitVec 10) (v : Word) (s : State) : Host.Outcome State Fault Refusal := s.act (prtSignal page.toNat v)

/-! ### Foreground and backfill (R163 to R170) -/

/-- CORE_BF_CTRL_WRITE (R164). -/
def coreBfCtrlWrite (d p : Nat) (v : Word) (b : Blk) : Blk :=
  let off := Reg.coreBfCtrl d p
  let old := b.reg off
  let b1 := b.setReg off (setBits old 15 0 (bits v 15 0))
  if bit v 16 = bit old 16 ∨ (b.slot (slotKey d p false)).bound ∨ (b.slot (slotKey d p true)).bound then b1
  else
    let b2 := b1.setFld off 16 16 (b2n (bit v 16))
    if bit v 16 then b2.clearShare (slotKey d p true) else b2

def execCoreBfCtrlWrite (src : Src) (die : Fin 2) (p : Fin 20) (v : Word) (s : State) : Host.Outcome State Fault Refusal :=
  s.regw src (Reg.coreBfCtrl die.val p.val) v (modify (coreBfCtrlWrite die.val p.val v))

/-- Is a slot bound, running and not waiting? -/
def Slot.ready (s : Slot) : Bool := s.bound && (s.st == .run) && (s.wait == .none)

/-- R166: the waits that count toward the threshold. -/
def Wait.counts : Wait → Bool
  | .sync _ _ => true
  | .fence _ _ _ => true
  | .credit _ => true
  | .runFast _ => true
  | _ => false

/-- Turn a core to one of its slots (R168, R756 type 0x03). -/
def switchTo (d p : Nat) (bf : Bool) (b : Blk) : Blk :=
  let b1 := b.setCore (coreKey d p) { b.core (coreKey d p) with runBf := bf }
  let k := slotKey d p bf
  b1.trace k 3 (b1.slot k).issuePc (b2n bf)

/-- On the core that runs a logical number, if it is active and not moving (R643, R646). -/
def onCore (d l : Nat) (f : Nat → Blk → Blk) (b : Blk) : Blk := match b.physOf d l with
  | some p => if b.moving d p then b else f p b
  | none => b

/-- BACKFILL_SWITCH (R166). -/
def execBackfillSwitch (die : Fin 2) (core : Fin 16) (s : State) : Host.Outcome State Fault Refusal :=
  s.upd (onCore die.val core.val (fun p b =>
    let fg := b.slot (slotKey die.val p false)
    if !(b.core (coreKey die.val p)).runBf && (b.slot (slotKey die.val p true)).ready && fg.bound && (fg.st == .run) && fg.wait.counts &&
        decide (b.fld (Reg.coreBfCtrl die.val p) 15 0 ≠ 0) then switchTo die.val p true b else b))

/-- BACKFILL_RUN_IDLE (R167). -/
def execBackfillRunIdle (die : Fin 2) (core : Fin 16) (s : State) : Host.Outcome State Fault Refusal :=
  s.upd (onCore die.val core.val (fun p b =>
    let fg := b.slot (slotKey die.val p false)
    if !(b.core (coreKey die.val p)).runBf && (b.slot (slotKey die.val p true)).ready && (!fg.bound || (fg.st != .run)) then
      switchTo die.val p true b else b))

/-- FOREGROUND_RETURN (R168, R169). -/
def execForegroundReturn (die : Fin 2) (core : Fin 16) (s : State) : Host.Outcome State Fault Refusal :=
  s.upd (onCore die.val core.val (fun p b =>
    if (b.core (coreKey die.val p)).runBf && (b.slot (slotKey die.val p false)).ready then switchTo die.val p false b else b))

end Sys2Proof.Machine
end

