-- ==== Sys2Proof/Machine/HostDie.lean ====
section
/-! DEFINITION. The host die: UCIe modules, notify entries, drain and restart, PCIe links
(09_host_die_coupling.md R426, R440, R444 to R455; 01_one_package.md R24 to R27). -/
namespace Sys2Proof.Machine

def modHost (f : HostSt → HostSt) : Act Unit := modify (fun b => { b with host := f b.host })

/-! ### UCIe modules -/

/-- R24, R25: the fitted modules. -/
def ucieFitted (u : Nat) : Bool := decide (u < 4) || decide (8 ≤ u ∧ u < 12) || decide (16 ≤ u ∧ u < 24)
/-- The compute die of a host-group module (R24). -/
def ucieDie (u : Nat) : Option Nat := if u < 4 then some 0 else if 8 ≤ u ∧ u < 12 then some 1 else none
/-- The bit of HCE_LINK_STS that says a host-group module is in its group. -/
def ucieUpBit (u : Nat) : Nat := 48 + 4 * (u / 8) + u % 8

/-- Does a fitted module work in its group (R27)? -/
def Blk.ucieUp (b : Blk) (u : Nat) : Bool :=
  ucieFitted u && (match ucieDie u with
    | some _ => bit (b.reg Reg.hceLinkSts) (ucieUpBit u)
    | none => true)

/-- UCIE_RETRAIN_START (R444): what the module holds waits in its retry buffer, in order. -/
def ucieRetrainStart (u : Nat) (b : Blk) : Blk :=
  if !b.ucieUp u || b.host.retrain.contains u then b
  else
    let b := { b with host := { b.host with retrain := b.host.retrain ++ [u] } }
    match ucieDie u with
    | some d => b.count Reg.hceLinkSts (16 * d + 15) (16 * d) 1
    | none => b

def execUcieRetrainStart (u : Nat) (s : State) : Host.Outcome State Fault Refusal := s.upd (ucieRetrainStart u)

/-- The module's retry buffer is replayed in its order. -/
def retrainEnd (u : Nat) (h : HostSt) : HostSt := { h with retrain := h.retrain.filter (fun x => decide (x ≠ u)) }

/-- UCIE_RETRAIN_DONE (R444). -/
def execUcieRetrainDone (u : Nat) (s : State) : Host.Outcome State Fault Refusal :=
  s.upd (fun b => { b with host := retrainEnd u b.host })

/-- R446: what the package does when the host link of a compute die is declared down. -/
def hostLinkDown (d : Nat) : Act Unit := do
  if (← get).linkDown d then return ()
  closeMerges (fun c => decide (c / 4 = d))
  setFld Reg.hceLinkSts (56 + d) (56 + d) 1
  copyLinkDown d
  residLinkDown d
  modify (fun b =>
    let lines := (b.mem.devDirty.filter (fun x => decide (x.1 = d))).map (fun x => x.2 / 64)
    { b with mem := { b.mem with
        devDirty := b.mem.devDirty.filter (fun x => decide (x.1 ≠ d)),
        poisonLines := b.mem.poisonLines ++ lines.filter (fun l => !b.mem.poisonLines.contains l) } })
  let mine (l : Nat × List Byte) : Bool := decide (hbmBase d ≤ l.1 ∧ l.1 < hbmBase d + 0x8000000000)
  let lost := ((← get).mem.hostDirty.filter mine).length
  modify (fun b => { b with mem := { b.mem with hostDirty := b.mem.hostDirty.filter (fun l => !mine l) } })
  countFld Reg.hceLinkSts 47 32 lost
  sendMsi 3
  post { code := 0x09, sev := 2, die := d, d0 := (← get).fld Reg.hceLinkSts 47 32 }

/-- UCIE_RETRAIN_TIMEOUT (R27, R445, R446): a module that retrains is removed; the lines it carried go to the remaining ones,
in order, and a host link that keeps none is down. -/
def ucieRetrainTimeout (u : Nat) : Act Unit := do
  let b ← get
  match ucieDie u with
  | none => pure ()
  | some d =>
    if b.host.retrain.contains u then
      modHost (retrainEnd u)
      setFld Reg.hceLinkSts (ucieUpBit u) (ucieUpBit u) 0
      sendMsi 3
      post { code := 0x08, sev := 1, die := d, d0 := u }
      if (← get).fld Reg.hceLinkSts (51 + 4 * d) (48 + 4 * d) = 0 then hostLinkDown d

def execUcieRetrainTimeout (u : Nat) (s : State) : Host.Outcome State Fault Refusal := s.act (ucieRetrainTimeout u)

/-! ### Notify entries -/

/-- HCE_NOTIFY_CTL_WRITE (R426, R455). -/
def hceNotifyCtlWrite (i : Nat) (v : Word) (b : Blk) : Blk :=
  let off := Reg.hceNotifyCtl i
  let w := ((regDesc off).map (fun d => d.write (b.reg off) v)).getD 0
  let b := b.setReg off w
  let o := bits w 45 32
  if bit w 63 && !bit w 62 && (b.syncOwner o).isSome && syncOk (b.syncVal o) (b.reg (off + 8)) then
    (b.setReg off (setBit w 62 true)).msi (bits w 23 19) (bits w 18 16) (bits w 10 0)
  else b

def execHceNotifyCtlWrite (_src : Src) (i : BitVec 8) (v : Word) (s : State) : Host.Outcome State Fault Refusal :=
  s.upd (hceNotifyCtlWrite i.toNat v)

/-! ### Drain and restart -/

/-- R449: the host cores' L2s are written back and invalidated, and the host cores are reset. -/
def resetHostCores : Act Unit := do
  let ls := (← get).mem.hostDirty
  modify (fun b => { b with mem := { b.mem with hostDirty := [] } })
  ls.forM (fun l => mergeWrite (l.1 / 8192) (l.1 % 8192) l.2)
  modHost (fun h => { h with coreResets := h.coreResets + 1, coresStopped := false, doubleTrap := 0, reserve := [] })

/-- R448, R449, R454: a request of a drain, with a restart of the host cores or without. -/
def askDrain (restart : Bool) : Act Unit := do
  let b ← get
  if b.hold then (if restart then resetHostCores else pure ())
  else modHost (fun h => { h with drain := some (restart || h.drain.getD false) })

def execDrain (_src : Src) (s : State) : Host.Outcome State Fault Refusal := s.act (askDrain false)
def execRestart (_src : Src) (s : State) : Host.Outcome State Fault Refusal := s.act (askDrain true)

/-- DRAIN_COMPLETE (R449). -/
def drainComplete (ns : Nat) : Act Unit := do
  match (← get).host.drain with
  | none => pure ()
  | some restart =>
    modHost (fun h => { h with drain := none })
    setReg Reg.hceRestart (word (3 <<< 32 ||| min ns (2 ^ 32 - 1)))
    sendMsi 4
    if restart then resetHostCores

def execDrainComplete (ns : Nat) (s : State) : Host.Outcome State Fault Refusal := s.act (drainComplete ns)

/-- ENABLE (R451, R454): held commands go on. -/
def execEnable (_src : Src) (s : State) : Host.Outcome State Fault Refusal :=
  s.upd (fun b => if b.hold then b.setFld Reg.hceRestart 33 32 0 else b)

/-- SBI_SYSTEM_RESET (R448): a shutdown leaves the host cores stopped; a hart that halts on a double trap asks for a restart. -/
def sbiSystemReset : SbiReset → Act Unit
  | .reboot => askDrain true
  | .shutdown => do
    askDrain false
    modHost (fun h => { h with coresStopped := true })
  | .doubleTrap hart => do
    modHost (fun h => { h with doubleTrap := h.doubleTrap ||| 2 ^ hart.val })
    askDrain true

def execSbiSystemReset (k : SbiReset) (s : State) : Host.Outcome State Fault Refusal := s.act (sbiSystemReset k)

/-! ### PCIe links -/

/-- Has the command at the head of an engine a PCIe transfer on this port? -/
def CopyCmd.onPort (x : CopyCmd) (b : Blk) (port : Nat) : Bool :=
  x.ranges.any (fun e => match translate x.comp.part e.1 e.2 b with
    | .ok pa _ => decide ((b.resolve pa).2 = .pcie ∧ b.portOf pa = port)
    | .error _ _ => false)

/-- PCIE_LINK_DOWN (R438, R440): the copies under way on the port complete with 0x08. -/
def pcieLinkDown (port : Nat) : Act Unit := do
  if port < 2 ^ min ((← get).fld Reg.hcePcieCfg 7 6) 2 then
    modHost (fun h => { h with pcieDown := h.pcieDown.filter (fun x => decide (x ≠ port)) ++ [port] })
    (← get).engines.forM (fun e => do
      match e.2 with
      | [] => pure ()
      | x :: r =>
        if x.onPort (← get) port then
          modify (fun b => b.setEng e.1 r)
          completeCmd x.comp (e.1 / 8) 0x08 0)

def execPcieLinkDown (port : Fin 4) (s : State) : Host.Outcome State Fault Refusal := s.act (pcieLinkDown port.val)

end Sys2Proof.Machine
end

