-- ==== Sys2Proof/Machine/Stage.lean ====
section
/-! DEFINITION. The stages of a start and their reports (16_coming_to_life.md R709 to R722). -/
namespace Sys2Proof.Machine

/-- R709: the stages that a stage waits for. -/
def stageAfter : Nat → List Nat
  | 0 => []
  | 1 => [0]
  | 2 => [1]
  | 6 => [3, 4]
  | 8 => [5, 6]
  | _ => [2]

/-- RESULT of a stage (R712). -/
def Blk.stageRes (b : Blk) (s : Nat) : Nat := b.fld (Reg.pkgStage s) 63 60
/-- Has a stage completed with pass or degraded? -/
def Blk.stageOk (b : Blk) (s : Nat) : Bool := decide (b.stageRes s = 2 ∨ b.stageRes s = 3)
/-- STOPPED and DONE (R716, R717). -/
def Blk.stopped (b : Blk) : Bool := bit (b.reg Reg.pkgStartSts) 58
def Blk.started (b : Blk) : Bool := bit (b.reg Reg.pkgStartSts) 59
/-- Can a start run: auxiliary input present, RESET_N released, not in Sleep, not waiting for main good (R669, R695, R699)? -/
def Blk.awake (b : Blk) : Bool := b.pwr.aux && !b.pwr.rstLow && !b.pwr.asleep && !b.pwr.off
/-- R709: may a stage begin? -/
def Blk.mayBegin (b : Blk) (s : Nat) : Bool :=
  b.awake && !b.stopped && decide (b.stageRes s = 0) && (stageAfter s).all b.stageOk && (decide (s ≠ 2) || b.pwr.main)

/-- The microseconds since the start began (PKG_START_STS.ELAPSED_US). -/
def Blk.elapsedUs (b : Blk) : Nat := min ((b.aon.elapsed - b.start.began) / 1000) (2 ^ 32 - 1)

def modStart (f : StartSt → StartSt) : Act Unit := modify (fun b => { b with start := f b.start })

/-- STAGE shows the lowest stage in progress, ELAPSED_US the time since the start began; both stand still at DONE or STOPPED. -/
def startReport : Act Unit := do
  let b ← get
  if !b.started && !b.stopped then
    setFld Reg.pkgStartSts 31 0 b.elapsedUs
    match (List.range 9).find? (fun s => decide (b.stageRes s = 1)) with
    | some s => setFld Reg.pkgStartSts 63 60 s
    | none => pure ()

/-- `us` microseconds pass. -/
def Blk.pass (b : Blk) (us : Nat) : Blk := b.elapse (us * 1000)

/-- A stage begins. -/
def stageBegin (s : Nat) : Act Unit := do
  setReg (Reg.pkgStage s) (word (1 <<< 60))
  modify (fun b => { b with start := { b.start with stageAt := b.start.stageAt ++ [(s, b.aon.elapsed)] } })
  startReport

/-- The first cause that a stage finds (PKG_STAGE.CAUSE). -/
def stageCause (s c : Nat) : Act Unit := do
  if (← get).fld (Reg.pkgStage s) 55 48 = 0 then setFld (Reg.pkgStage s) 55 48 c

/-- A unit of a stage failed, or runs reduced, or is excluded (PKG_STAGE.UNITS). -/
def stageUnit (s u : Nat) : Act Unit := setFld (Reg.pkgStage s) (24 + u) (24 + u) 1

/-- R719: an activation that waited is taken; the image itself takes effect at the next start (R632). -/
def settleActivation : Act Unit := do
  let b ← get
  match b.sec.activate with
  | none => pure ()
  | some ch =>
    set { b with sec := { b.sec with activate := none } }
    let other := if bit (b.reg Reg.secStatus) 53 then b.sec.bank0 else b.sec.bank1
    let run := if bit (b.reg Reg.secStatus) 53 then b.sec.bank1 else b.sec.bank0
    changeLog (chanWho ch) 0x03 0 ((run.map (·.version)).getD 0) ((other.map (·.version)).getD 0)

/-- R712, R716, R717, R720: a stage ends: its word, READY or the stop, and the message to every subscriber. -/
def stageEnd (s res : Nat) : Act Unit := do
  let b ← get
  let since := ((b.start.stageAt.find? (fun x => decide (x.1 = s))).map (·.2)).getD b.aon.elapsed
  modStart (fun t => { t with stageAt := t.stageAt.filter (fun x => decide (x.1 ≠ s)) })
  setFld (Reg.pkgStage s) 23 0 (min ((b.aon.elapsed - since) / 1000) (2 ^ 24 - 1))
  startReport
  setFld (Reg.pkgStage s) 63 60 res
  if !b.started && !b.stopped then
    if res = 4 then
      setFld Reg.pkgStartSts 63 60 s
      setFld Reg.pkgStartSts 58 58 1
    else if s = 8 then
      setFld Reg.pkgStartSts 63 60 8
      setFld Reg.pkgStartSts 59 59 1
    else startReport
  let w := (← get).reg (Reg.pkgStage s)
  modStart (fun t => { t with msgs := t.msgs ++ t.subs.map (fun e => (e, 0x22 :: natLe 8 w.toNat)) })
  if (← get).started || (← get).stopped then settleActivation

/-- The result of a stage that goes on: degraded when it lists a unit. -/
def Blk.stageGood (b : Blk) (s : Nat) : Nat := if b.fld (Reg.pkgStage s) 47 24 = 0 then 2 else 3

/-- The lanes that the FABRIC stage starts: those with a role, and the service port among them (R714). -/
def Blk.fabricLanes (b : Blk) : List Nat := (List.range 49).filter (fun n => decide (b.role n ≠ 0))

/-- The FABRIC stage ends: UNITS counts the lanes in FAILED or MISWIRED (R713, R714). -/
def fabricEnd : Act Unit := do
  let b ← get
  let bad := (b.fabricLanes.filter (fun n => decide (b.laneSt n = 9 ∨ b.laneSt n = 8))).length
  setFld (Reg.pkgStage 7) 47 24 bad
  stageEnd 7 (if bad = 0 then 2 else 3)

/-- R714: the FABRIC stage completes when every lane with a role is in UP or FAILED. -/
def fabricCheck : Act Unit := do
  let b ← get
  if b.stageRes 7 = 1 && b.fabricLanes.all (fun n => decide (b.laneSt n = 5 ∨ b.laneSt n = 9)) then fabricEnd

end Sys2Proof.Machine
end

