-- ==== Sys2Proof/Machine/Lanes.lean ====
section
/-! DEFINITION. Lanes: attempts, hellos, entering and leaving UP; the host transmit ring, whose frames a lane may refuse
(10_cragil_links_and_mac.md R456 to R483, R500 to R508). -/
namespace Sys2Proof.Machine

/-! ### Lane state (R461 to R467, R475 to R477) -/

/-- Put a lane in a state; the lanes of a four-lane port report that of the lowest one (R462). -/
def Blk.laneTo (b : Blk) (n st : Nat) : Blk :=
  if b.grouped n then
    (List.range 4).foldl (fun b i => (b.setFld (Reg.fabLaneSts (groupLow n + 2 * i)) 63 60 st).setFld
      (Reg.fabLaneSts (groupLow n + 2 * i)) 57 57 1) b
  else (b.setFld (Reg.fabLaneSts n) 63 60 st).setFld (Reg.fabLaneSts n) 57 57 0
/-- As above; the FABRIC stage may be complete with it (R714). -/
def laneTo (n st : Nat) : Act Unit := do
  modify (·.laneTo n st)
  fabricCheck

/-- Is it a lane, and the one that governs its port (R462)? -/
def Blk.leads (b : Blk) (n : Nat) : Bool := decide (b.govern n = n)
/-- A torus or mirror role (R468). -/
def Blk.peerRole (b : Blk) (n : Nat) : Bool := decide (1 ≤ b.role n ∧ b.role n ≤ 9)
/-- Does the lane send hellos (R468)? -/
def Blk.hellos (b : Blk) (n : Nat) : Bool := b.peerRole n && decide (b.fld Reg.fabCtrl 15 0 ≠ 0)
/-- Has the lane's die power, and is it in service (R475, R481, R654)? -/
def Blk.laneOn (b : Blk) (n : Nat) : Bool := decide (n = 48) || (!b.dieOut (laneDie n) && !b.dozing)

/-- The rates of a lane that are enabled and not removed (R475, R476). -/
def Blk.rates (b : Blk) (n : Nat) : Nat := b.fld (Reg.fabLaneCfg n) 8 6 &&& (7 ^^^ (b.port n).removed)
/-- The SPEED code of the highest of a set of rates. -/
def topSpeed (r : Nat) : Nat := if r.testBit 2 then 3 else if r.testBit 1 then 2 else if r.testBit 0 then 1 else 0
/-- R458: the first state of an attempt. -/
def Blk.firstState (b : Blk) (n : Nat) : Nat :=
  if b.fld (Reg.fabLaneCfg n) 11 10 = 2 then 3 else if bit (b.reg (Reg.fabLaneCfg n)) 9 then 1 else 2

/-- Begin an attempt at the highest enabled rate, or end in FAILED when none remains (R476). -/
def beginAttempt (n : Nat) : Act Unit := do
  let b ← get
  modPort n (fun p => { p with passed := false, hello := none, txq := [] })
  setFld (Reg.fabLaneSts n) 59 58 (topSpeed (b.rates n))
  laneTo n (if b.rates n = 0 then 9 else b.firstState n)

/-- R463: does every lane of a four-lane port have ROLE switched? -/
def Blk.groupOk (b : Blk) (n : Nat) : Bool := !b.grouped n || (List.range 4).all (fun i => decide (b.role (groupLow n + 2 * i) = 0xA))

/-- Start a lane from its first state (R463, R467, R475). -/
def startLane (n : Nat) : Act Unit := do
  let b ← get
  if !b.groupOk n then laneTo n 0xA
  else if b.role n = 0 ∨ b.fld (Reg.fabLaneCfg n) 8 6 = 0 ∨ !b.laneOn n then
    setFld (Reg.fabLaneSts n) 59 58 0
    laneTo n 0
  else beginAttempt n

/-- ATTEMPT_FAIL (R476). -/
def attemptFail (n : Nat) : Act Unit := do
  let b ← get
  let k := b.fld (Reg.fabLaneSts n) 35 32 + 1
  if max (b.fld Reg.fabCtrl 27 24) 1 ≤ k then
    if bit (b.reg Reg.fabCtrl) 23 then
      setFld (Reg.fabLaneSts n) 35 32 0
      modPort n (fun p => { p with removed := p.removed ||| 2 ^ (b.fld (Reg.fabLaneSts n) 59 58 - 1) })
      beginAttempt n
    else
      setFld (Reg.fabLaneSts n) 35 32 k
      setFld (Reg.fabLaneSts n) 59 58 0
      laneTo n 9
  else
    setFld (Reg.fabLaneSts n) 35 32 k
    beginAttempt n

/-- LANE_NEG_DONE (R458): the highest rate that both ends advertise; without one the attempt fails. -/
def laneNegDone (n peer : Nat) : Act Unit := do
  let b ← get
  if b.laneSt n = 1 && b.leads n then
    let r := b.rates n &&& peer
    if r = 0 then attemptFail n
    else
      setFld (Reg.fabLaneSts n) 59 58 (topSpeed r)
      laneTo n 2

def execLaneNegDone (n : Fin 49) (peerRates : BitVec 3) (s : State) : Host.Outcome State Fault Refusal :=
  s.act (laneNegDone n.val peerRates.toNat)

/-- LANE_TRAIN_DONE (R475). -/
def execLaneTrainDone (n : Fin 49) (s : State) : Host.Outcome State Fault Refusal :=
  s.upd (fun b => if b.laneSt n.val = 2 && b.leads n.val then b.laneTo n.val 3 else b)

/-- LANE_QUICK_DONE (R475). -/
def execLaneQuickDone (n : Fin 49) (s : State) : Host.Outcome State Fault Refusal :=
  s.upd (fun b => if b.laneSt n.val = 7 && b.leads n.val then b.laneTo n.val 3 else b)

/-- LANE_ENTER_UP (R472, R473, R477, R480): the lane's incarnation advances and the hello that took it to UP is recorded. -/
def enterUp (n : Nat) (h : Option Hello) : Act Unit := do
  let off := Reg.fabLaneSts n
  modify (fun b => b.setFld off 15 0 (b.fld off 15 0 + 1))
  setFld off 35 32 0
  setFld off 55 48 ((h.map (fun h => h.lane.toNat)).getD 0xFF)
  setFld off 47 36 ((h.map (fun h => h.package.toNat)).getD 0)
  setFld off 31 16 ((h.map (fun h => h.linc.toNat)).getD 0)
  modPort n (fun p => { p with peer := h.map (fun h => (h.serial, h.mac.toNat)), unc := [] })
  laneTo n 5
  match h with
  | some h =>
    modify (fun b => { b with col := { b.col with declared := b.col.declared.filter (fun x => decide (x ≠ h.package.toNat)) } })
  | none => pure ()
  kick

/-- LANE_ALIGN_DONE (R475). -/
def laneAlignDone (n : Nat) : Act Unit := do
  let b ← get
  if b.laneSt n = 3 && b.leads n then
    if b.hellos n then laneTo n 4 else enterUp n none

def execLaneAlignDone (n : Fin 49) (s : State) : Host.Outcome State Fault Refusal := s.act (laneAlignDone n.val)

/-- LANE_STATE_TIMEOUT (R475): the attempt fails; QUICK gives way to a full attempt. -/
def laneStateTimeout (n : Nat) : Act Unit := do
  let b ← get
  if b.leads n then
    if [1, 2, 3, 4].contains (b.laneSt n) then attemptFail n
    else if b.laneSt n = 7 then beginAttempt n

def execLaneStateTimeout (n : Fin 49) (s : State) : Host.Outcome State Fault Refusal := s.act (laneStateTimeout n.val)

/-- R475, R481: a lane goes to QUICK. -/
def quickLane (n : Nat) : Act Unit := do
  modPort n (fun p => { p with passed := false, hello := none, txq := [] })
  laneTo n 7

/-- HOLD_EXPIRY (R475). -/
def execHoldExpiry (n : Fin 49) (s : State) : Host.Outcome State Fault Refusal :=
  s.act (do if (← get).laneSt n.val = 6 && (← get).leads n.val then quickLane n.val)

/-! ### Timestamps (R501, R502) -/

/-- A timestamp of this instant with a signed adjustment in 1/256 ns: nanoseconds and fraction. -/
def Blk.timestamp (b : Blk) (adj : Int) : Nat × Nat :=
  let t : Nat := (((b.aon.ns * 256 + b.aon.frac / 2 ^ 32 : Nat) : Int) + adj).toNat
  (t / 256 % 2 ^ 64, t % 256)
/-- QUAL (R685). -/
def Blk.qual (b : Blk) : Nat := b.fld Reg.aonTimeCtrl 63 63

/-! ### The host rings (R504 to R508) -/

/-- The log2 of a ring's slot count. -/
def ringLog (w : Word) : Nat := let l := bits w 3 0; if 4 ≤ l ∧ l ≤ 12 then l else 4
/-- The address of a slot. -/
def ringSlot (w : Word) (i : Nat) : Nat := bits w 47 14 * 16384 + 16384 * (i % 2 ^ ringLog w)
/-- R785: write a slot of a ring that lies in a tier; elsewhere event 0x14. -/
def hostRingWrite (a : Nat) (bs : List Byte) : Act Unit := do
  let r := ((← get).resolve a).2
  if r.isTier then quietly (writePa ⟨none⟩ a bs)
  else post { code := 0x14, sev := 2, d0 := 6, d1 := a }

/-- TX_SLOT_COMPLETE (R508): the slot's status and timestamp, CONS, the signal. -/
def txSlotDone (st : Nat) (ts : Option (Nat × Nat)) : Act Unit := do
  let b ← get
  let w := b.reg Reg.fabTxrCfg
  let cons := b.fld Reg.fabTxrIdx 31 0
  let t := match ts with
    | some (ns, f) => [word ns, word (b.qual <<< 8 ||| f)]
    | none => [0, 0]
  hostRingWrite (ringSlot w cons + 8) (wordsBytes (word (st <<< 56) :: t))
  setFld Reg.fabTxrIdx 31 0 (cons + 1)
  giveSignal 0 (bits w 61 48) 1

/-- MAXFRAME as it acts (MAC_CTRL). -/
def Blk.maxFrame (b : Blk) (n : Nat) : Nat := min 16320 (max 1518 (b.fld (Reg.macCtrl n) 13 0))

/-- Is a frame of the transmit ring in a port's queue? -/
def Blk.ringBusy (b : Blk) : Bool := b.link.ports.any (fun kp => kp.2.txq.any (fun f => match f.kind with
  | .ring _ => true
  | _ => false))

/-- R507, R508: take the slot at CONS: its frame joins its port's queue, or is refused.  Answers whether the slot was
refused, so that the next one can be taken. -/
def takeSlot : Act Bool := do
  let b ← get
  let w := b.reg Reg.fabTxrCfg
  let a := ringSlot w (b.fld Reg.fabTxrIdx 31 0)
  let refuse (st : Nat) : Act Bool := do
    txSlotDone st none
    pure true
  match ← attempt (readWord a) with
  | .error st => refuse st
  | .ok h =>
    let len := bits h 63 48
    let port := bits h 47 40
    let b ← get
    if bits h 35 0 ≠ 0 ∨ 48 < port ∨ len < 60 ∨ b.maxFrame (b.govern port) - 4 < len then refuse 0x0A
    else
      let n := b.govern port
      let q := bits h 39 37
      if b.laneSt n ≠ 5 then refuse 0x08
      else if 64 ≤ ((b.port n).inQueue q).length then pure false
      else
        match ← attempt (readPa ⟨none⟩ (a + 64) len) with
        | .error st => refuse st
        | .ok bs =>
          modPort n (fun p => { p with txq := p.txq ++ [⟨q, b.fld (Reg.fabLaneSts n) 15 0, .ring (bit h 36), bs⟩] })
          pure false

/-- R508: slots are taken in order, the next one when the one before it is done. -/
def txRingGo : Nat → Act Unit
  | 0 => pure ()
  | fuel + 1 => do
    let b ← get
    if bit (b.reg Reg.fabTxrCfg) 63 && !b.ringBusy && decide (b.fld Reg.fabTxrIdx 31 0 ≠ b.fld Reg.fabTxrIdx 63 32) then
      if ← takeSlot then txRingGo fuel

def txRing : Act Unit := do
  let b ← get
  txRingGo (min ((b.fld Reg.fabTxrIdx 63 32 + 2 ^ 32 - b.fld Reg.fabTxrIdx 31 0) % 2 ^ 32) 4096)

/-- FAB_TXR_IDX_WRITE (R507). -/
def fabTxrIdxWrite (v : Word) : Act Unit := do
  setFld Reg.fabTxrIdx 63 32 (bits v 63 32)
  txRing

def execFabTxrIdxWrite (src : Src) (v : Word) (s : State) : Host.Outcome State Fault Refusal :=
  s.regw src Reg.fabTxrIdx v (fabTxrIdxWrite v)

/-- FAB_RING_CFG_WRITE (R516): EN going from 0 to 1 zeroes both indices; BASE and LOG2 stay while EN is 1. -/
def fabRingCfgWrite (tx : Bool) (v : Word) (b : Blk) : Blk :=
  let off := if tx then Reg.fabTxrCfg else Reg.fabRxrCfg
  let old := b.reg off
  let w := ((regDesc off).map (fun d => d.write old v)).getD 0
  let w := if bit old 63 then setBits (setBits w 47 14 (bits old 47 14)) 3 0 (bits old 3 0) else w
  let b := b.setReg off w
  if bit w 63 && !bit old 63 then b.setReg (if tx then Reg.fabTxrIdx else Reg.fabRxrIdx) 0 else b

def execFabRingCfgWrite (src : Src) (tx : Bool) (v : Word) (s : State) : Host.Outcome State Fault Refusal :=
  s.regw src (if tx then Reg.fabTxrCfg else Reg.fabRxrCfg) v (modify (fabRingCfgWrite tx v))

/-! ### Hellos (R468 to R474) -/

/-- The payload of a hello (R469). -/
def helloPayload (h : Hello) : List Byte :=
  natBe 2 h.version.toNat ++ natBe 2 (b2n h.up ||| b2n h.seen <<< 1 ||| b2n h.leaving <<< 2) ++ natBe 8 h.serial.toNat ++
  natBe 2 (b2n h.valid <<< 15 ||| h.package.toNat) ++ natBe 1 h.lane.toNat ++ natBe 1 h.role.toNat ++ natBe 2 h.linc.toNat ++
  List.replicate 28 0

/-- The hello that a frame's payload holds. -/
def helloOf (mac : Nat) (l : List Byte) : Hello :=
  let f := beAt l 2 2
  let p := beAt l 12 2
  {
    version := BitVec.ofNat 16 (beAt l 0 2), up := f.testBit 0, seen := f.testBit 1, leaving := f.testBit 2, serial := word (beAt l 4 8),
    valid := p.testBit 15, package := BitVec.ofNat 12 p, lane := BitVec.ofNat 8 (beAt l 14 1), role := BitVec.ofNat 8 (beAt l 15 1),
    linc := BitVec.ofNat 16 (beAt l 16 2), mac := BitVec.ofNat 48 mac }

/-- The hello that a lane sends now (R468, R469, R471). -/
def Blk.helloOut (b : Blk) (n : Nat) (leaving : Bool) : Hello :=
  let st := b.laneSt n
  let w := b.reg Reg.pkgNumber
  {
    version := 1, up := decide (st = 5), seen := (b.port n).passed && decide (st ≠ 8), leaving := leaving,
    serial := b.reg Reg.pkgSerial, valid := bit w 31, package := BitVec.ofNat 12 (bits w 11 0), lane := BitVec.ofNat 8 n,
    role := BitVec.ofNat 8 (b.role n),
    linc := BitVec.ofNat 16 (b.fld (Reg.fabLaneSts n) 15 0 + (if st = 5 then 0 else 1)), mac := BitVec.ofNat 48 (b.macOf n) }

def helloFrame (h : Hello) : List Byte := ethBytes 0x0180C200000E h.mac.toNat none 0 0x88B5 (helloPayload h)

/-- The MAC sends a frame: what leaves, and the counts. -/
def wire (n : Nat) (bs : List Byte) : Act Unit := do
  let bs := padTo (max 60 bs.length) bs
  modPort n (fun p => { p with lastTx := bs })
  macCount n 10 1
  macCount n 11 (bs.length + 4)

/-- LANE_LEAVE_UP (R479): queued frames are discarded, transport frames reported as not sent; a hello tells the peer when
the PCS is still aligned; the event is posted. -/
def leaveUp (n : Nat) (aligned : Bool) : Act Unit := do
  let b ← get
  let q := (b.port n).txq
  modPort n (fun p => { p with txq := [], ctl := [] })
  q.reverse.forM notSent
  macCount n 13 q.length
  if aligned && b.hellos n then wire n (helloFrame (b.helloOut n true))
  laneTo n 6
  post { code := 0x0A, sev := 0, die := if n = 48 then 2 else laneDie n, d0 := n, d1 := b.fld (Reg.fabLaneSts n) 15 0, d2 := q.length }
  if q.any (fun f => match f.kind with
      | .ring _ => true
      | _ => false) then
    txSlotDone 0x08 none
    txRing
  kick

/-- HELLO_SEND (R468): the hello joins queue 7. -/
def helloSend (n : Nat) : Act Unit := do
  let b ← get
  if b.leads n && b.hellos n && [3, 4, 5, 8].contains (b.laneSt n) && decide (((b.port n).inQueue 7).length < 64) then
    modPort n (fun p => { p with txq := p.txq ++ [⟨7, b.fld (Reg.fabLaneSts n) 15 0, .hello, helloFrame (b.helloOut n false)⟩] })

def execHelloSend (n : Fin 49) (s : State) : Host.Outcome State Fault Refusal := s.act (helloSend n.val)

/-- The partner role (R470). -/
def partner (r : Nat) : Nat := if r = 9 then 9 else if r % 2 = 1 then r + 1 else r - 1

/-- R470: does a hello pass the check? -/
def Blk.helloOk (b : Blk) (n : Nat) (h : Hello) : Bool :=
  !bit (b.reg Reg.fabCtrl) 22 ||
    (decide (h.role.toNat = partner (b.role n)) &&
      (match ((b.upLanes (b.role n)).filterMap (fun m => (b.port m).peer)).head? with
      | some (serial, _) => decide (serial = h.serial)
      | none => true))

/-- R470 to R473, R478: a hello at a lane. -/
def helloIn (n : Nat) (h : Hello) : Act Unit := do
  let b ← get
  if b.leads n && b.peerRole n && [4, 5, 8].contains (b.laneSt n) then
    if h.version ≠ 1 then macCount n 6 1
    else
      modPort n (fun p => { p with hello := some h })
      if b.laneSt n = 5 then
        match (b.port n).peer with
        | some (serial, _) =>
          if h.leaving ∨ h.serial ≠ serial ∨ h.linc.toNat ≠ b.fld (Reg.fabLaneSts n) 31 16 then leaveUp n true
        | none => pure ()
      else
        let ok := b.helloOk n h
        modPort n (fun p => { p with passed := ok })
        if ok && h.seen then enterUp n (some h)
        else if !ok && decide (b.laneSt n = 4) then laneTo n 8

def execHelloReceive (n : Fin 49) (h : Hello) (s : State) : Host.Outcome State Fault Refusal := s.act (helloIn n.val h)

/-- R474: does the lane hold its peer paused, so that it cannot send hellos? -/
def Blk.holdsPeer (b : Blk) (n : Nat) : Bool :=
  let x := b.fld (Reg.macFcSts n) 15 8
  match b.fld (Reg.macFc n) 63 62 with
  | 1 => decide (x ≠ 0)
  | 2 => x.testBit 7
  | _ => false

/-- HELLO_MISS_EXPIRY (R474, R478). -/
def helloMissExpiry (n : Nat) : Act Unit := do
  let b ← get
  if b.leads n && decide (b.laneSt n = 5) && b.hellos n && !b.holdsPeer n then leaveUp n true

def execHelloMissExpiry (n : Fin 49) (s : State) : Host.Outcome State Fault Refusal := s.act (helloMissExpiry n.val)

/-- LANE_PCS_LOSS (R478). -/
def lanePcsLoss (n : Nat) (aligned : Bool) : Act Unit := do
  let b ← get
  if b.leads n && decide (b.laneSt n = 5) then leaveUp n aligned

def execLanePcsLoss (n : Fin 49) (aligned : Bool) (s : State) : Host.Outcome State Fault Refusal := s.act (lanePcsLoss n.val aligned)

/-! ### FAB_LANE_CFG (R466, R467, R477) -/

/-- What a write leaves in FAB_LANE_CFG: ROLE 0xB belongs to port 48 alone, which takes no other role and only MEDIA KR;
SFEC is port 48's. -/
def laneCfgOf (n : Nat) (old v : Word) : Word :=
  let w := v &&& 0xFFF0
  if n = 48 then setBits (setBits w 15 12 0xB) 11 10 0
  else
    let w := setBits w 5 4 0
    if bits w 15 12 = 0xB then setBits w 15 12 (bits old 15 12) else w

/-- FAB_LANE_CFG_WRITE (R467): a write that changes nothing has no effect on the lane.  In a four-lane port the lowest lane's
fields govern, and of the others only ROLE matters (R462, R463). -/
def fabLaneCfgWrite (n : Nat) (v : Word) : Act Unit := do
  let b ← get
  let old := b.reg (Reg.fabLaneCfg n)
  let w := laneCfgOf n old v
  let g := b.govern n
  if w ≠ old ∧ (g = n ∨ bits w 15 12 ≠ bits old 15 12) then
    if b.laneSt g = 5 then leaveUp g true
    setReg (Reg.fabLaneCfg n) w
    modPort g (fun p => { p with removed := 0 })
    setFld (Reg.fabLaneSts g) 35 32 0
    startLane g
  else setReg (Reg.fabLaneCfg n) w

def execFabLaneCfgWrite (src : Src) (n : Fin 49) (v : Word) (s : State) : Host.Outcome State Fault Refusal :=
  s.regw src (Reg.fabLaneCfg n.val) v (fabLaneCfgWrite n.val v)

end Sys2Proof.Machine
end

