-- ==== Sys2Proof/Machine/Mac.lean ====
section
/-! DEFINITION. The MAC of a port: receiving and sending frames, flow control, wake patterns
(10_cragil_links_and_mac.md R484 to R499, R505, R506, R511 to R514). -/
namespace Sys2Proof.Machine

/-! ### Flow control (R494 to R499) -/

/-- Bytes of a port's receive buffer in use, of one priority or of all. -/
def Port.held (p : Port) (prio : Option Nat) : Nat := ((p.rx.filter (fun x => prio.all (fun q => decide (x.prio = q)))).map (·.bytes)).sum
/-- The flow-control mode: 1 PAUSE, 2 PFC, 0 none (MAC_FC). -/
def Blk.fcMode (b : Blk) (n : Nat) : Nat := b.fld (Reg.macFc n) 63 62 % 3
/-- The occupancy that counts for a priority (R496). -/
def Blk.fcHeld (b : Blk) (n q : Nat) : Nat := (b.port n).held (if b.fcMode n = 2 then some q else none)
/-- XOFF and XON in bytes (R497). -/
def Blk.xoff (b : Blk) (n : Nat) : Nat := b.fld (Reg.macFc n) 31 24 * 1024
def Blk.xon (b : Blk) (n : Nat) : Nat :=
  let x := b.fld (Reg.macFc n) 23 16
  let f := b.fld (Reg.macFc n) 31 24
  if x < f then x * 1024 else f / 2 * 1024

/-- A PAUSE frame, or a PFC frame for one priority (R495, R496). -/
def pauseFrame (mode src q quanta : Nat) : List Byte :=
  padTo 60 (ethBytes 0x0180C2000001 src none 0 0x8808
    (if mode = 1 then natBe 2 1 ++ natBe 2 quanta
     else natBe 2 0x0101 ++ natBe 2 (2 ^ q) ++ (List.range 8).flatMap (fun i => natBe 2 (if i = q then quanta else 0))))

/-- Queue a PAUSE or PFC frame (R490). -/
def sendPause (n q quanta : Nat) : Act Unit := do
  let b ← get
  let f := pauseFrame (b.fcMode n) (b.macOf n) q quanta
  modPort n (fun p => { p with ctl := p.ctl ++ [f] })
  let m := if b.fcMode n = 1 then 255 else 2 ^ q
  let x := b.fld (Reg.macFcSts n) 15 8
  setFld (Reg.macFcSts n) 15 8 (if quanta = 0 then x - (x &&& m) else x ||| m)

/-- Does the port use flow control for this priority (R494)? -/
def Blk.fcOn (b : Blk) (n q : Nat) : Bool :=
  decide (b.fcMode n = 1) || (decide (b.fcMode n = 2) && (b.fld (Reg.macFc n) 61 54).testBit q)

/-- PFC_XOFF_SEND (R496). -/
def xoffCheck (n q : Nat) : Act Unit := do
  let b ← get
  if b.fcOn n q && !(b.fld (Reg.macFcSts n) 15 8).testBit q && decide (b.xoff n < b.fcHeld n q) then
    sendPause n q (b.fld (Reg.macFc n) 47 32)

/-- PFC_REFRESH (R496). -/
def pfcRefresh (n q : Nat) : Act Unit := do
  let b ← get
  if b.fcOn n q && (b.fld (Reg.macFcSts n) 15 8).testBit q && decide (b.xon n < b.fcHeld n q) then
    sendPause n q (b.fld (Reg.macFc n) 47 32)

def execPfcRefresh (n : Fin 49) (prio : Fin 8) (s : State) : Host.Outcome State Fault Refusal := s.act (pfcRefresh n.val prio.val)

/-- PFC_XON_SEND (R496). -/
def pfcXonSend (n q : Nat) : Act Unit := do
  let b ← get
  if (b.fld (Reg.macFcSts n) 15 8).testBit q && decide (b.fcHeld n q < b.xon n) then sendPause n q 0

def execPfcXonSend (n : Fin 49) (prio : Fin 8) (s : State) : Host.Outcome State Fault Refusal := s.act (pfcXonSend n.val prio.val)

/-- The peer pauses or releases priorities (R495, R499): `on` and `off` are sets of them. -/
def pausedBy (n on off : Nat) : Act Unit := do
  let b ← get
  let x := b.fld (Reg.macFcSts n) 7 0
  let t := b.fld (Reg.macFcSts n) 23 16
  setFld (Reg.macFcSts n) 7 0 ((x ||| on) - ((x ||| on) &&& off))
  setFld (Reg.macFcSts n) 23 16 (t - (t &&& off))
  kick

/-- PAUSE_EXPIRY (R495): under PAUSE one time covers every queue. -/
def pauseExpiry (n q : Nat) : Act Unit := do
  let b ← get
  if (b.fld (Reg.macFcSts n) 7 0).testBit q then pausedBy n 0 (if b.fcMode n = 1 then 255 else 2 ^ q)

def execPauseExpiry (n : Fin 49) (prio : Fin 8) (s : State) : Host.Outcome State Fault Refusal := s.act (pauseExpiry n.val prio.val)

/-- The frames of queues that the watchdog discards (R499). -/
def wdDiscard (n : Nat) : Act Unit := do
  let b ← get
  let gone (f : TxFrame) : Bool := (b.fld (Reg.macFcSts n) 23 16).testBit f.q
  let l := (b.port n).txq.filter gone
  if !l.isEmpty then
    modPort n (fun p => { p with txq := p.txq.filter (fun f => !gone f) })
    macCount n 14 l.length
    l.reverse.forM notSent
    if l.any (fun f => match f.kind with
        | .ring _ => true
        | _ => false) then
      txSlotDone 0x01 none
      txRing
    kick

/-- PFC_WATCHDOG_EXPIRY (R499). -/
def pfcWatchdogExpiry (n q : Nat) : Act Unit := do
  let b ← get
  if (b.fld (Reg.macFcSts n) 7 0).testBit q && decide (b.fld (Reg.macFc n) 15 8 ≠ 0) && !(b.fld (Reg.macFcSts n) 23 16).testBit q then
    setFld (Reg.macFcSts n) (16 + q) (16 + q) 1
    post { code := 0x0B, sev := 1, die := if n = 48 then 2 else laneDie n, d0 := n, d1 := q }
    wdDiscard n

def execPfcWatchdogExpiry (n : Fin 49) (prio : Fin 8) (s : State) : Host.Outcome State Fault Refusal := s.act (pfcWatchdogExpiry n.val prio.val)

/-! ### Sending (R480, R489, R490) -/

/-- R480: frames of the transport whose tag is no longer the lane's incarnation are discarded when they reach the head. -/
def dropStale (n : Nat) : Act Unit := do
  let b ← get
  let stale (f : TxFrame) : Bool := match f.kind with
    | .pkt _ _ => decide (f.linc ≠ b.fld (Reg.fabLaneSts n) 15 0)
    | _ => false
  let l := (b.port n).txq.filter stale
  if !l.isEmpty then
    modPort n (fun p => { p with txq := p.txq.filter (fun f => !stale f) })
    macCount n 13 l.length
    l.reverse.forM notSent

/-- FRAME_TRANSMIT (R489, R490): a PAUSE or PFC frame first, else the oldest frame of the highest queue that is not paused. -/
def frameTransmit (n : Nat) : Act Unit := do
  let b ← get
  if b.leads n && [3, 4, 5, 8].contains (b.laneSt n) then
    match (b.port n).ctl with
    | f :: r =>
      modPort n (fun p => { p with ctl := r })
      macCount n 12 1
      wire n f
    | [] =>
      wdDiscard n
      dropStale n
      let b ← get
      let ok (f : TxFrame) : Bool := !b.paused n f.q && (decide (b.laneSt n = 5) || f.kind == .hello)
      let l := (b.port n).txq.filter ok
      let q := (l.map (·.q)).foldl max 0
      match l.find? (fun f => decide (f.q = q)) with
      | none => pure ()
      | some f =>
        modPort n (fun p => { p with txq := p.txq.erase f })
        wire n f.bytes
        match f.kind with
        | .ring ts => txSlotDone 0x00 (if ts then some (b.timestamp (sext (b.fld (Reg.macTsAdj n) 31 16) 16)) else none)
        | _ => pure ()
        txRing
        kick

def execFrameTransmit (n : Fin 49) (s : State) : Host.Outcome State Fault Refusal := s.act (frameTransmit n.val)

/-! ### The receive ring (R500 to R502, R505, R506) -/

/-- RX_RING_DELIVER: a frame for the host, with its error flags and the bytes to store. -/
def rxDeliver (n : Nat) (e : EthView) (bs : List Byte) (err : Nat) (ptp : Bool) : Act Unit := do
  let b ← get
  let w := b.reg Reg.fabRxrCfg
  let prod := b.fld Reg.fabRxrIdx 31 0
  if !bit w 63 then pure ()
  else if (prod + 2 ^ 32 - b.fld Reg.fabRxrIdx 63 32) % 2 ^ 32 = 2 ^ ringLog w then
    macCount n 15 1
    set { (← get) with link := { (← get).link with drops := (← get).link.drops + 1 } }
  else
    let err := if 16320 < bs.length then err ||| 8 else err
    let bs := bs.take 16320
    let ts := b.timestamp (- sext (b.fld (Reg.macTsAdj n) 15 0) 16)
    let w0 := bs.length <<< 48 ||| n <<< 40 ||| rxPrio e <<< 37 ||| b2n (decide (0 < e.tags)) <<< 36 ||| b2n ptp <<< 35 |||
      (if ptp then b.qual <<< 34 else 0) ||| err
    let st := wordsBytes [word w0, if ptp then word ts.1 else 0, if ptp then word ts.2 else 0, word (min b.link.drops (2 ^ 32 - 1))]
    hostRingWrite (ringSlot w prod) (padTo 64 st ++ bs)
    set { (← get) with link := { (← get).link with drops := 0 } }
    setFld Reg.fabRxrIdx 31 0 (prod + 1)
    giveSignal 0 (bits w 61 48) 1

/-- R500: is it an event message of IEEE 1588? -/
def isPtpEvent (e : EthView) (u : Option UdpView) : Bool :=
  (decide (e.etype = 0x88F7) && decide (beAt e.body 0 1 % 16 < 4)) || u.any (fun u => decide (u.dport = 319))

/-! ### Wake patterns (R511 to R514) -/

/-- The frame bytes that a pattern selects. -/
def Blk.wakeBytes (b : Blk) (k : Nat) : List Nat := (List.range 16).flatMap (fun w => (bitsOf (b.reg (Reg.macWakeMask k w)).toNat 64).map (64 * w + ·))

/-- R512, R513: does a frame match a pattern? -/
def Blk.wakeHit (b : Blk) (bs : List Byte) (k : Nat) : Bool :=
  let sel := b.wakeBytes k
  bit (b.reg (Reg.macWakeCtl k)) 63 && !sel.isEmpty && sel.all (fun i => decide (i < bs.length)) &&
    decide ((crc32 (sel.map (fun i => nth bs 0 i))).toNat = b.fld (Reg.macWakeCtl k) 31 0)

/-- WAKE_PATTERN_MATCH (R514): in Doze or Sleep the match raises the wake event. -/
def wakeMatch (bs : List Byte) (low : Bool) : Act Unit := do
  let b ← get
  match (List.range 16).filter (b.wakeHit bs) with
  | [] => pure ()
  | k :: r =>
    let m := (k :: r).foldl (fun m k => m ||| 2 ^ k) (b.fld Reg.macWakeSts 15 0)
    setFld Reg.macWakeSts 15 0 m
    setFld Reg.macWakeSts 19 16 k
    countFld Reg.macWakeSts 63 32 1
    if low then setFld Reg.macWakeSts 31 31 1

/-! ### Receiving (R484 to R488) -/

/-- The IP addresses of the package (R483, R519). -/
def Blk.isOurIp (b : Blk) (v4 : Bool) (a : Nat) : Bool :=
  if v4 then decide (a = b.fld Reg.xptIp4 31 0)
  else decide (a = (b.reg Reg.xptIp6Hi).toNat <<< 64 ||| (b.reg Reg.xptIp6Lo).toNat) || (List.range 48).any (fun n => decide (a = linkLocal (b.macOf n)))

/-- R484 row 3: is the destination one that the port accepts? -/
def Blk.dstOk (b : Blk) (n dst : Nat) : Bool :=
  decide (dst = b.macOf n) || (decide (n = 48) && decide (dst = b.macOf 49)) || decide (dst = 2 ^ 48 - 1) ||
  (List.range 16).any (fun k =>
    let w := b.reg (Reg.macMcast n k)
    bit w 63 && bit w 40 && decide (bits w 47 0 = dst))

/-- R478: uncorrectable codewords within 100 µs of the elapsed count. -/
def fecExcess (n unc : Nat) : Act Unit := do
  let b ← get
  let l := ((b.port n).unc.filter (fun x => decide (b.aon.elapsed < x.1 + 100000))) ++ (if unc = 0 then [] else [(b.aon.elapsed, unc)])
  modPort n (fun p => { p with unc := l })
  let m := b.fld Reg.fabCtrl 63 56
  if n < 48 ∧ m ≠ 0 ∧ m < (l.map (·.2)).sum ∧ (← get).laneSt n = 5 then leaveUp n true

/-- A packet arrives at the transport (R524, R526, R527, R534): one of an undefined kind is dropped; one whose context is not
cached waits in the context-miss buffer; a transit packet holds no receive buffer. -/
def toTransport (n q bytes : Nat) (p : Packet) : Act Unit := do
  let b ← get
  if p.version ≠ 1 ∨ !opDefined p.op.toNat then xptCount (laneDie n) 9
  else
    let mine := b.pkgNo.all (fun me => decide (p.dstPkg.toNat = me))
    let req := engineOp p.op || [0x01, 0x02, 0x03, 0x05, 0x07].contains p.op.toNat
    match b.qp p.dstQp.toNat with
    | some x =>
      if mine && req && !b.cached p.dstQp.toNat x.die then ctxMiss p.dstQp.toNat x.die p
      else modPort n (fun y => { y with rx := y.rx ++ [⟨p, q, if mine then bytes else 0⟩] })
    | none => modPort n (fun y => { y with rx := y.rx ++ [⟨p, q, if mine then bytes else 0⟩] })
    xoffCheck n q

/-- R484 row 2: PAUSE and PFC frames (R494, R495). -/
def macControl (n : Nat) (e : EthView) : Act Unit := do
  let b ← get
  let op := beAt e.body 0 2
  if op = 1 then
    macCount n 9 1
    if b.fcMode n = 1 then
      if beAt e.body 2 2 = 0 then pausedBy n 0 255 else pausedBy n 255 0
  else if op = 0x0101 then
    macCount n 9 1
    if b.fcMode n = 2 then
      let en := beAt e.body 2 2 % 256
      let qs := bitsOf en 8
      let set (f : Nat → Bool) : Nat := (qs.filter f).foldl (fun m q => m ||| 2 ^ q) 0
      pausedBy n (set (fun q => decide (beAt e.body (4 + 2 * q) 2 ≠ 0))) (set (fun q => decide (beAt e.body (4 + 2 * q) 2 = 0)))
  else macCount n 6 1

/-- R484 row 1: the error flags of a bad frame. -/
def Blk.badFlags (b : Blk) (n : Nat) (f : RxFrame) : Nat :=
  b2n f.fcsBad ||| b2n (decide (f.fecUnc ≠ 0)) <<< 1 ||| b2n (decide (f.bytes.length + 4 < 64)) <<< 2 |||
    b2n (decide (b.maxFrame n < f.bytes.length + 4)) <<< 3

/-- A bad frame with its FCS (R506): the FCS of a frame whose check failed is open (log entry 14). -/
def withFcs (f : RxFrame) : Act (List Byte) := do
  let c ← if f.fcsBad then freeBytes 4 else pure (natLe 4 (crc32 f.bytes).toNat)
  pure (f.bytes ++ c)

/-- R484 from row 4 on, for a frame that is addressed to the port. -/
def frameGood (n : Nat) (f : RxFrame) (e : EthView) (low : Bool) : Act Unit := do
  let b ← get
  let good : Act Unit := do
    macCount n 0 1
    macCount n 1 (f.bytes.length + 4)
  if 1 < e.tags ∨ ((b.vidOf n).any (fun v => decide (0 < e.tags ∧ e.vid ≠ v))) then macCount n 6 1
  else
    if n = 48 then wakeMatch f.bytes low
    let q := rxPrio e
    let size := if b.grouped n then 4 * 524288 else 524288
    if !(decide (b.fcMode n = 1) || (decide (b.fcMode n = 2) && (b.fld (Reg.macFc n) 61 54).testBit q)) &&
        decide (size < (b.port n).held none + f.bytes.length + 4) then macCount n 8 1
    else if e.etype = 0x88B5 ∧ b.peerRole n then
      good
      helloIn n (helloOf e.src e.body)
    else if b.laneSt n ≠ 5 then pure ()
    else
      let u := udpView e
      let port := b.fld Reg.xptCtrl 63 48
      if u.any (fun u => u.badSum || (u.noSum && decide (u.dport = port))) then
        macCount n 7 1
        if bit (b.reg (Reg.macCtrl n)) 62 then rxDeliver n e (← withFcs f) 16 false
      else
        match u with
        | some v =>
          if n < 48 ∧ v.dport = port ∧ b.isOurIp v.v4 v.dst then
            good
            toTransport n q (f.bytes.length + 4) (packetOf v.body)
          else rest b good u
        | none => rest b good u
where
  /-- Row 8, and R487 on the service port: the management endpoint takes what is addressed to it. -/
  rest (b : Blk) (good : Act Unit) (u : Option UdpView) : Act Unit := do
    if n = 48 ∧ e.dst = b.macOf 48 then good
    else if bit (b.reg (Reg.macCtrl n)) 61 then
      good
      rxDeliver n e f.bytes 0 (isPtpEvent e u)
    else macCount n 6 1

/-- R512: does a frame pass rows 1 to 4 of R484 on the service port and match a pattern? -/
def Blk.wakes (b : Blk) (f : RxFrame) : Bool :=
  let e := ethView f.bytes
  decide (b.badFlags 48 f = 0) && !(decide (e.tags = 0) && decide (e.etype = 0x8808)) && b.dstOk 48 e.dst &&
    !(decide (1 < e.tags) || (b.vidOf 48).any (fun v => decide (0 < e.tags ∧ e.vid ≠ v))) && (List.range 16).any (b.wakeHit f.bytes)

/-- FRAME_RECEIVE (R484).  A lane that is not aligned receives nothing; before UP only hellos count. -/
def frameReceive (n : Nat) (f : RxFrame) (low : Bool) : Act Unit := do
  let b ← get
  if b.leads n && ([4, 5, 8].contains (b.laneSt n) || (low && decide (n = 48))) then
    macCount n 3 f.fecCorr
    macCount n 4 f.fecUnc
    let bad := b.badFlags n f
    let e := ethView f.bytes
    if bad ≠ 0 then
      if f.fcsBad then macCount n 2 1
      if bad / 4 ≠ 0 then macCount n 5 1
      if bit (b.reg (Reg.macCtrl n)) 62 then rxDeliver n e (← withFcs f) bad false
    else if e.tags = 0 ∧ e.etype = 0x8808 then macControl n e
    else if !b.dstOk n e.dst then
      if bit (b.reg (Reg.macCtrl n)) 63 then
        macCount n 0 1
        macCount n 1 (f.bytes.length + 4)
        rxDeliver n e f.bytes 32 false
      else macCount n 6 1
    else frameGood n f e low
    fecExcess n f.fecUnc

end Sys2Proof.Machine
end

