-- ==== Sys2Proof/Machine/Parts.lean ====
section
/-! DEFINITION. Partition commands (13_partitions_and_trust.md R615 to R621). -/
namespace Sys2Proof.Machine

/-- PRT_STS of a command. -/
def prtSts (busy : Bool) (st p : Nat) : Word := word (b2n busy <<< 63 ||| st <<< 48 ||| p)
/-- STATE of a partition as PRT_PART stores it. -/
def Blk.partState (b : Blk) (p : Nat) : Nat := b.fld (Reg.prtPart p) 62 60

/-- A partition command; one at a time (R616). -/
def prtCommand (p : Nat) (body : Act Unit) : Act Unit := do
  if !bit ((← get).reg Reg.prtSts) 63 then
    let st ← Act.status body
    let old := (← get).fld Reg.prtSts 55 48
    setReg Reg.prtSts (prtSts (decide (st = notYet)) (if st = notYet then old else st) p)

/-- The word that PRT_CMD takes. -/
def prtCmdWord (cmd p : Nat) : Word := word (cmd <<< 60 ||| p <<< 48)

/-- PRT_CMD ENABLE (R616). -/
def prtEnable (p : Nat) : Act Unit := do
  need (decide ((← get).partState p = 0 ∧ p ≠ 0)) 0x0A
  setFld (Reg.prtPart p) 63 60 9

def execPrtEnable (src : Src) (part : BitVec 10) (s : State) : Host.Outcome State Fault Refusal :=
  s.regw src Reg.prtCmd (prtCmdWord 1 part.toNat) (prtCommand part.toNat (prtEnable part.toNat))

/-- PRT_CMD INVAL (R50, R617): every access of this model has reached memory or been refused when it ends, so the
invalidation completes at once. -/
def prtInval (p : Nat) : Act Unit := do
  let b ← get
  need (decide (p = 0 ∨ b.partState p = 1)) 0x0A
  need (decide (b.fld Reg.prtArg 63 59 ≤ 26)) 0x0A

def execPrtInval (src : Src) (part : BitVec 10) (s : State) : Host.Outcome State Fault Refusal :=
  s.regw src Reg.prtCmd (prtCmdWord 3 part.toNat) (prtCommand part.toNat (prtInval part.toNat))

/-- The contexts of a partition's bound streams. -/
def Blk.streamsOf (b : Blk) (p : Nat) : List Nat :=
  ((b.slots.filter (fun ks => ks.2.bound && decide (ks.2.part.toNat = p ∧ ks.2.stt = 1))).map (fun ks => ks.2.ctx.toNat)).eraseDups

/-- PRT_CMD TEARDOWN, steps 1 and 2 (R619): BUSY stays until step 7. -/
def prtTeardown (p : Nat) : Act Unit := do
  need (decide ((← get).partState p = 1 ∧ p ≠ 0)) 0x0A
  setFld (Reg.prtPart p) 62 60 2
  ((← get).streamsOf p).forM (fun n => do
    stopMembers n
    flushStream n
    modify (fun b => if b.ctxCmds.any (fun c => decide (c.2.1 = n)) then b else { b with ctxCmds := b.ctxCmds ++ [(2, n, false)] }))
  modify (fun b => { b with sec := { b.sec with tear := 2 } })
  throw notYet

def execPrtTeardown (src : Src) (part : BitVec 10) (s : State) : Host.Outcome State Fault Refusal :=
  s.regw src Reg.prtCmd (prtCmdWord 2 part.toNat) (prtCommand part.toNat (prtTeardown part.toNat))

/-- R619, step 3: the partition's queue pairs go to the error state, its valid windows are revoked and its key is 0. -/
def tearLinks (p : Nat) : Act Unit := do
  (← get).xpt.qps.forM (fun q => do
    match q.2 with
    | some x => if x.part = p ∧ x.err.isNone then qpError q.1 1 x.una
    | none => pure ())
  colSettle
  (List.range 256).forM (fun w => quietly (do
    let ws ← readWords ((← get).winAddr p w) 4
    if bit (nth ws 0 0) 63 then putWin p w false ws))
  xptPkeyWrite p 0

/-- R619, step 4: has every copy command, remote command and collective of the partition completed? -/
def Blk.partQuiet (b : Blk) (p : Nat) : Bool :=
  b.engines.all (fun e => e.2.all (fun x => decide (x.comp.part ≠ p))) &&
  b.xpt.qps.all (fun q => q.2.all (fun x => x.cmds.all (fun c => decide (c.comp.part ≠ p)))) &&
  b.col.colls.all (fun c => decide (c.comp.part ≠ p)) && b.col.perms.all (fun c => decide (c.comp.part ≠ p))

/-- A slot's registers of R138, zeroed; what says where its context stands remains. -/
def Slot.zeroed (s : Slot) : Slot :=
  { bound := s.bound, ctx := s.ctx, part := s.part, everBound := s.everBound, log := s.log, m := Vector.replicate 8 0,
    fetch := s.fetch, tail := s.tail, headWb := s.headWb, st := s.st, waitLimit := s.waitLimit, stt := s.stt,
    ringBase := s.ringBase, ringLog := s.ringLog, fin := s.fin, lands := s.lands }

/-- R619, steps 5 to 7. -/
def tearEnd (p : Nat) : Act Unit := do
  ((← get).slots.filter (fun ks => ks.2.everBound && decide (ks.2.part.toNat = p))).forM (fun ks => do
    discardLandings ks.1 true
    modify (·.clearShare ks.1)
    modSlot ks.1 Slot.zeroed)
  setFld (Reg.prtPart p) 63 60 0
  setReg Reg.prtSts (prtSts false 0 p)
  modify (fun b => { b with sec := { b.sec with tear := 0 } })

/-- What a TEARDOWN does next when what it waits for has happened; the package looks on its idle ticks (log entry 2). -/
def tearStep : Act Unit := do
  let b ← get
  let p := b.fld Reg.prtSts 9 0
  let at' (n : Nat) : Act Unit := modify (fun b => { b with sec := { b.sec with tear := n } })
  match b.sec.tear with
  | 2 => if (b.streamsOf p).isEmpty && b.xpt.revoking.isNone then
      tearLinks p
      at' 3
  | 3 => if b.xpt.revoking.isNone then at' 4
  | 4 => if b.partQuiet p then tearEnd p
  | _ => pure ()

end Sys2Proof.Machine
end

