-- ==== Sys2Proof/Machine/Trust.lean ====
section
/-! DEFINITION. Identity, boot and the management channels (13_partitions_and_trust.md R622 to R637; 16_coming_to_life.md
R719, R721, R722).  Answers hold the values that the spec names, in its order; the message formats of the standards that it
refers to are not modelled (log entry 47). -/
namespace Sys2Proof.Machine

def modSec (f : SecSt → SecSt) : Act Unit := modify (fun b => { b with sec := f b.sec })

/-! ### Measurements and keys (R633 to R636) -/

/-- A 512-bit digest as bytes, first byte first. -/
def digestBytes (d : BitVec 512) : List Byte := natBe 64 d.toNat
/-- SHA-512 of a byte string, as bytes. -/
def sha (l : List Byte) : List Byte := digestBytes (Config.sha512 l)

/-- The 64 bytes of eight consecutive registers, byte 8w of word w first. -/
def Blk.bytes64 (b : Blk) (off : Nat) : List Byte := wordsBytes ((List.range 8).map (fun w => b.reg (off + 8 * w)))
def Blk.setBytes64 (b : Blk) (off : Nat) (l : List Byte) : Blk :=
  (List.range 8).foldl (fun b w => b.setReg (off + 8 * w) (wordAt l (8 * w))) b

/-- Measurement register i (R635). -/
def Blk.meas (b : Blk) (i : Nat) : List Byte := b.bytes64 (Reg.secMeas (8 * i))
/-- R635: extend measurement i by a digest. -/
def extend (i : Nat) (d : List Byte) : Act Unit := modify (fun b => b.setBytes64 (Reg.secMeas (8 * i)) (sha (b.meas i ++ d)))

/-- The owner key digest (SEC_OWNER). -/
def Blk.ownerDigest (b : Blk) : List Byte := b.bytes64 (Reg.secOwner 0)
/-- OWNER_SET. -/
def Blk.ownerSet (b : Blk) : Bool := bit (b.reg Reg.secStatus) 51

/-- R635, R636: measurement 6: key-slot state, fused SVN, SEC_POLICY, owner key digest. -/
def extendConfig : Act Unit := do
  let b ← get
  extend 6 (sha (natLe 1 b.sec.fuse.revoked ++ natLe 1 b.sec.fuse.svn ++ natLe 8 (b.reg Reg.secPolicy).toNat ++ b.ownerDigest))

/-- R633: the alias key. -/
def Blk.aliasKey (b : Blk) : BitVec 256 := Config.hkdf Config.deviceSecret (BitVec.ofNat 512 (beNat (b.meas 1)))
/-- R634: the certificate chain. -/
def Blk.chain (b : Blk) : List Byte :=
  Config.cert 0 [] ++ Config.cert 1 [] ++ Config.cert 2 (natBe 8 (b.reg Reg.pkgSerial).toNat) ++ Config.cert 3 (b.meas 1)

/-! ### Images (R629 to R632) -/

/-- R630: does the boot ROM accept an image? -/
def Blk.imageOk (b : Blk) (x : Image) : Bool :=
  decide (Config.sha512 x.key = Config.keySlot x.slot.val) && !b.sec.fuse.revoked.testBit x.slot.val &&
  Config.ed25519Verify x.key x.manifest x.signature && decide (b.sec.fuse.svn ≤ x.svn) && x.componentsMatch

/-- The bank that runs (SEC_STATUS.BANK), and its image. -/
def Blk.bankRun (b : Blk) : Bool := bit (b.reg Reg.secStatus) 53
def Blk.bank (b : Blk) (one : Bool) : Option Image := if one then b.sec.bank1 else b.sec.bank0
def Blk.runImage (b : Blk) : Option Image := b.bank b.bankRun

/-- R632: is bank 1 the one with the higher SVN and version? -/
def Blk.bank1First (b : Blk) : Bool := match b.sec.bank0, b.sec.bank1 with
  | some x, some y => decide (x.svn < y.svn) || (decide (x.svn = y.svn) && decide (x.version.toNat < y.version.toNat))
  | none, some _ => true
  | _, none => false

/-- R632: the bank that the boot ROM starts, and whether the one that it tried first failed. -/
def Blk.chooseBank (b : Blk) : Option (Bool × Bool) :=
  let first := b.bank1First
  let ok (one : Bool) : Bool := (b.bank one).any b.imageOk
  if ok first then some (first, false)
  else if ok (!first) then some (!first, (b.bank first).isSome)
  else none

/-- The identity fuses as registers show them (R56 to R58; SEC_STATUS). -/
def loadFuses : Act Unit := do
  let f := (← get).sec.fuse
  setReg Reg.pkgIdent (word (0x4860 <<< 48 ||| f.variant <<< 44 ||| f.stepping <<< 40 ||| f.hbmRated <<< 36))
  setReg Reg.pkgSerial f.serial
  setFld Reg.pkgCap 63 40 0xFF0F0F
  setFld Reg.pkgCap 39 32 f.hbmPresent
  setFld Reg.pkgCap 7 0 (if f.variant = 1 then 64 else 48)
  setFld Reg.secStatus 63 60 f.lifecycle
  setFld Reg.secStatus 59 56 f.revoked
  setFld Reg.secStatus 47 40 f.svn

/-- The value of SEC_STATUS.NONCE that comes next (log entry 12). -/
def nextNonce : Act Unit := do
  modSec (fun x => { x with nonceAt := x.nonceAt + 1 })
  setFld Reg.secStatus 31 0 (Config.nonce (← get).sec.nonceAt).toNat

/-- The newest valid copy of the Persistent image (R706). -/
def PwrSt.copy (p : PwrSt) : Option NorCopy :=
  if p.norA.valid && (!p.norB.valid || decide (p.norB.seq ≤ p.norA.seq)) then some p.norA
  else if p.norB.valid then some p.norB
  else none

/-- The factory default of FAB_MAC_BASE holds SERIAL bits [25:0] (10_cragil_links_and_mac.md, FAB_MAC_BASE). -/
def Blk.serialDefault (b : Blk) : Blk := b.setFld Reg.fabMacBase 31 6 (b.sec.fuse.serial.toNat % 2 ^ 26)

/-- R707: a record of the retained store that fails its check is refilled from the SPI NOR, or given its factory default with
the NOR cause bit set. -/
def refill (off : Nat) : Act Unit := do
  let b ← get
  let ret := ((regDesc off).map (·.ret)).getD 0
  match b.pwr.copy with
  | some c => setReg off ((sget (regReset off) c.regs off &&& ret) ||| (b.reg off &&& ~~~ret))
  | none =>
    setReg off ((regReset off &&& ret) ||| (b.reg off &&& ~~~ret))
    if off = Reg.fabMacBase then modify Blk.serialDefault
    setFld Reg.aonLost 54 54 1

/-- STAGE_ROM (R707, R709, R713, R630 to R632, R635). -/
def stageRom (bad : List Nat) (us : Nat) : Act Unit := do
  if (← get).mayBegin 0 then
    stageBegin 0
    modify (·.pass us)
    bad.forM refill
    loadFuses
    nextNonce
    let b ← get
    match b.chooseBank with
    | none =>
      stageCause 0 0x01
      stageEnd 0 4
    | some (one, fell) =>
      setFld Reg.secStatus 53 53 (b2n one)
      setFld Reg.secStatus 52 52 (b2n fell)
      match b.bank one with
      | some x =>
        if fell then changeLog (0, 0) 0x09 0 x.version (((b.bank !one).map (·.version)).getD 0)
        setFld Reg.secStatus 55 54 x.slot.val
        setFld Reg.secStatus 39 32 x.svn
        extend 0 (sha Config.romVersion)
        extend 1 (sha (nth x.components [] 0))
        stageEnd 0 2
      | none => pure ()

def execStageRom (bad : List Nat) (us : Nat) (s : State) : Host.Outcome State Fault Refusal := s.act (stageRom bad us)

/-- R631: the fuses that an image names are blown when it has completed the FIRMWARE stage. -/
def blowFuses (x : Image) : Act Unit := do
  let slots := (List.range x.slot.val).filter (fun k => x.revoke.getLsbD k)
  slots.forM (fun k => do
    if !(← get).sec.fuse.revoked.testBit k then
      modSec (fun y => { y with fuse := { y.fuse with revoked := y.fuse.revoked ||| 2 ^ k } })
      changeLog (0, 0) 0x04 0 0 x.version)
  if x.commitSvn && decide ((← get).sec.fuse.svn < x.svn) then
    modSec (fun y => { y with fuse := { y.fuse with svn := x.svn } })
    changeLog (0, 0) 0x03 0 x.version x.version
  let f := (← get).sec.fuse
  setFld Reg.secStatus 59 56 f.revoked
  setFld Reg.secStatus 47 40 f.svn

/-- STAGE_FIRMWARE (R709, R713, R631, R635). -/
def stageFirmware (ok : Bool) (us : Nat) : Act Unit := do
  if (← get).mayBegin 1 then
    stageBegin 1
    modify (·.pass us)
    if !ok then
      stageCause 1 0x12
      stageEnd 1 4
    else
      match (← get).runImage with
      | some x =>
        (List.range 4).forM (fun i => extend (i + 2) (sha (nth x.components [] (i + 1))))
        extendConfig
        blowFuses x
      | none => extendConfig
      stageEnd 1 2

def execStageFirmware (ok : Bool) (us : Nat) (s : State) : Host.Outcome State Fault Refusal := s.act (stageFirmware ok us)

/-! ### Channels and classes (R622 to R627) -/

/-- Is it one of the board management controller's buses? -/
def onBus : Channel → Bool
  | .i3c _ => true
  | .smbus _ => true
  | _ => false

/-- R624: may a channel issue a request of class C`c`? -/
def Blk.policy (b : Blk) (ch : Channel) (c : Nat) : Bool :=
  let p := b.reg Reg.secPolicy
  decide (c = 0) || (match ch with
    | .firmware => true
    | .host => bit p (c - 1)
    | .i3c _ => bit p (4 + c - 1)
    | .smbus _ => bit p (8 + c - 1)
    | .service _ => bit p (12 + c - 1))

/-- R716, R719, R623: is a request of a class answered now?  C0 and C1 from the end of the FIRMWARE stage, the others from READY;
after a stop C0 and firmware update alone, on the two buses; on the service port only inside a TLS session. -/
def Blk.serves (b : Blk) (ch : Channel) (c : Nat) (update : Bool := false) : Bool :=
  match ch with
  | .firmware => true
  | .host => true
  | _ =>
    b.awake && (if b.stopped then onBus ch && (decide (c = 0) || update) else b.stageOk 1 && (decide (c ≤ 1) || b.started)) &&
      (onBus ch || b.sec.tls)

/-- Answer a request. -/
def reply (a : Answer) (bs : List Byte := []) : Act Unit := modSec (fun x => { x with code := a, resp := bs })

/-- R626: a refused request is answered and logged. -/
def denied (ch : Channel) (pldm : Bool) (off : Nat := 0) : Act Unit := do
  changeLog (chanWho ch) 0x09 off 0 0
  reply (if pldm then .notReady else .error 0x01)

/-- A request of a class: not answered while nothing serves it, refused where the policy does not allow it; one of class C1
wakes the package from Doze (R692). -/
def request' (ch : Channel) (c : Nat) (pldm : Bool) (a : Act Unit) (update : Bool := false) : Act Unit := do
  let b ← get
  if b.serves ch c update then
    if b.policy ch c then
      if c = 1 then dozeWake 5
      a
    else denied ch pldm

/-- SEC_POLICY_WRITE (R624, R636). -/
def secPolicyWrite (ch : Channel) (v : Word) : Act Unit := do
  let old := (← get).reg Reg.secPolicy
  let new := v &&& 0xFFFF
  if old ≠ new then
    setReg Reg.secPolicy new
    changeLog (chanWho ch) 0x06 Reg.secPolicy old new
    extendConfig
  reply .ok

def execSecPolicyWrite (ch : Channel) (v : Word) (s : State) : Host.Outcome State Fault Refusal :=
  s.act (request' ch 3 true (secPolicyWrite ch v))

/-- SET_OWNER_KEY (R625): a replacement is signed by the current owner root key, `cur`. -/
def setOwnerKey (ch : Channel) (key cur sig : List Byte) : Act Unit := do
  let b ← get
  if b.ownerSet && !(decide (sha cur = b.ownerDigest) && Config.ed25519Verify cur key sig) then denied ch false
  else
    let old := b.reg (Reg.secOwner 0)
    modify (·.setBytes64 (Reg.secOwner 0) (sha key))
    setFld Reg.secStatus 51 51 1
    changeLog (chanWho ch) 0x05 (Reg.secOwner 0) old ((← get).reg (Reg.secOwner 0))
    extendConfig
    reply .ok

def execSetOwnerKey (ch : Channel) (key cur sig : List Byte) (s : State) : Host.Outcome State Fault Refusal :=
  s.act (request' ch 3 false (setOwnerKey ch key cur sig))

/-- PLDM_FIRMWARE_UPDATE (R627, R628, R632): `none` begins an update, an image ends it in the bank that does not run. -/
def firmwareUpdate (ch : Channel) (img : Option Image) : Act Unit := do
  let b ← get
  if b.sec.agent.any (fun c => decide (c ≠ ch)) then
    changeLog (chanWho ch) 0x09 0 0 0
    reply .inUpdate
  else
    match img with
    | none =>
      modSec (fun x => { x with agent := some ch })
      reply .ok
    | some i =>
      modSec (fun x => if b.bankRun then { x with agent := none, bank0 := some i } else { x with agent := none, bank1 := some i })
      changeLog (chanWho ch) 0x02 0 ((b.runImage.map (·.version)).getD 0) i.version
      reply .ok

def execPldmFirmwareUpdate (ch : Channel) (img : Option Image) (s : State) : Host.Outcome State Fault Refusal :=
  s.act (request' ch 2 true (firmwareUpdate ch img) true)

/-- FIRMWARE_ACTIVATE (R632, R719): it waits while bring-up runs. -/
def firmwareActivate (ch : Channel) : Act Unit := do
  modSec (fun x => { x with activate := some ch })
  if (← get).started || (← get).stopped then settleActivation
  reply .ok

def execFirmwareActivate (ch : Channel) (s : State) : Host.Outcome State Fault Refusal :=
  s.act (do
    let b ← get
    if b.serves ch 1 || b.stopped && onBus ch then
      if b.policy ch 2 then firmwareActivate ch else denied ch true)

/-- TLS_CONNECT (R623): TLS 1.3, TLS_AES_256_GCM_SHA384, ed25519, and a chain that ends at the owner root key. -/
def tlsConnect (version suite scheme : BitVec 16) (chain : List (List Byte)) : Act Unit := do
  let b ← get
  if b.awake && !b.stopped && b.stageOk 1 then
    let ok := version == 0x0304 && suite == 0x1302 && scheme == 0x0807 && b.ownerSet &&
      Config.chainVerify chain (BitVec.ofNat 512 (beNat b.ownerDigest))
    modSec (fun x => { x with tls := ok })

def execTlsConnect (version suite scheme : BitVec 16) (chain : List (List Byte)) (s : State) : Host.Outcome State Fault Refusal :=
  s.act (tlsConnect version suite scheme chain)

/-! ### SPDM (R636) -/

/-- An SPDM request of class C0. -/
def spdm (ch : Channel) (a : Act Unit) : Act Unit := request' ch 0 false a

/-- GET_VERSION: SPDM 1.2. -/
def execGetVersion (ch : Channel) (s : State) : Host.Outcome State Fault Refusal := s.act (spdm ch (reply .ok [0x12]))

/-- GET_CAPABILITIES: certificates, challenge, signed measurements; none of the rest (flags of DSP0274: log entry 47). -/
def execGetCapabilities (ch : Channel) (s : State) : Host.Outcome State Fault Refusal := s.act (spdm ch (reply .ok (natLe 4 0x16)))

/-- NEGOTIATE_ALGORITHMS: ed25519 (bit 9 of the asymmetric set) and SHA-512 (bit 2 of the hash set), where offered. -/
def execNegotiateAlgorithms (ch : Channel) (asym hash : Nat) (s : State) : Host.Outcome State Fault Refusal :=
  s.act (spdm ch (reply .ok (natLe 4 (asym &&& 0x200) ++ natLe 4 (hash &&& 0x4))))

/-- GET_DIGESTS: the digest of the chain of slot 0. -/
def execGetDigests (ch : Channel) (s : State) : Host.Outcome State Fault Refusal :=
  s.act (spdm ch (do reply .ok (sha (← get).chain)))

/-- GET_CERTIFICATE: slot 0 only. -/
def execGetCertificate (ch : Channel) (slot offset len : Nat) (s : State) : Host.Outcome State Fault Refusal :=
  s.act (spdm ch (do
    if slot = 0 then reply .ok (((← get).chain.drop offset).take len) else reply (.error 0x01)))

/-- Sign a message with the alias key. -/
def Blk.signed (b : Blk) (m : List Byte) : List Byte := Config.ed25519Sign b.aliasKey m

/-- CHALLENGE: signed with the alias key. -/
def execChallenge (ch : Channel) (slot : Nat) (nonce : List Byte) (s : State) : Host.Outcome State Fault Refusal :=
  s.act (spdm ch (do
    let b ← get
    if slot = 0 then reply .ok (sha b.chain ++ b.signed (nonce ++ sha b.chain)) else reply (.error 0x01)))

/-- R635: the DMTF value type of a measurement register. -/
def measType (i : Nat) : Nat := if i = 0 then 0 else if i < 6 then 1 else if i = 6 then 3 else 2

/-- A measurement as GET_MEASUREMENTS gives it: SPDM index, value type, value. -/
def Blk.measBlock (b : Blk) (i : Nat) : List Byte := natLe 1 (i + 1) ++ natLe 1 (measType i) ++ b.meas i

/-- GET_MEASUREMENTS: index 0 gives their number, 1 to 8 one of them, 0xFF all. -/
def getMeasurements (index : Nat) (sign : Bool) (nonce : List Byte) : Act Unit := do
  let b ← get
  let body := if index = 0 then some [0x08]
    else if index ≤ 8 then some (b.measBlock (index - 1))
    else if index = 0xFF then some ((List.range 8).flatMap b.measBlock)
    else none
  match body with
  | none => reply (.error 0x01)
  | some m => reply .ok (m ++ (if sign then b.signed (nonce ++ m) else []))

def execGetMeasurements (ch : Channel) (index : Nat) (sign : Bool) (nonce : List Byte) (s : State) : Host.Outcome State Fault Refusal :=
  s.act (spdm ch (getMeasurements index sign nonce))

/-! ### Debug unlock and Darsol commands (R637, R721, R722) -/

/-- What a debug token's signature covers. -/
def tokenBytes (t : DebugToken) : List Byte := natLe 8 t.serial.toNat ++ natLe 4 t.nonce.toNat

/-- R637: is a token good? -/
def Blk.tokenOk (b : Blk) (t : DebugToken) : Bool :=
  !b.sec.fuse.revoked.testBit t.slot.val && decide (Config.sha512 t.key = Config.keySlot t.slot.val) &&
  decide (t.serial = b.reg Reg.pkgSerial) && decide (t.nonce.toNat = b.fld Reg.secStatus 31 0) &&
  Config.ed25519Verify t.key (tokenBytes t) t.signature

/-- Is a partition other than 0 enabled? -/
def Blk.tenants (b : Blk) : Bool :=
  b.regs.any (fun kw => decide (Reg.prtPart 0 < kw.1 ∧ kw.1 ≤ Reg.prtPart 1023) && bit kw.2 63)

/-- DEBUG_UNLOCK (R637): the nonce advances after each token. -/
def debugUnlock (ch : Channel) (t : DebugToken) : Act Unit := do
  let b ← get
  if b.tokenOk t && !b.tenants then
    modSec (fun x => { x with unlocked := true })
    setFld Reg.secStatus 50 50 1
    extend 7 (sha (tokenBytes t))
    changeLog (chanWho ch) 0x08 0 0 0
    reply .ok
  else denied ch false
  nextNonce

def execDebugUnlock (ch : Channel) (t : DebugToken) (s : State) : Host.Outcome State Fault Refusal :=
  s.act (request' ch 0 false (debugUnlock ch t))

/-- GET_IDENTITY (R722). -/
def execGetIdentity (ch : Channel) (s : State) : Host.Outcome State Fault Refusal :=
  s.act (request' ch 0 false (do
    let b ← get
    reply .ok (0 :: wordsBytes ([Reg.pkgIdent, Reg.pkgSerial, Reg.pkgCap, Reg.pkgSpare 0, Reg.pkgSpare 1].map b.reg))))

/-- PKG_START_STS with the running ELAPSED_US. -/
def Blk.startSts (b : Blk) : Word :=
  if b.started || b.stopped || !(List.range 9).any (fun s => decide (b.stageRes s ≠ 0)) then b.reg Reg.pkgStartSts
  else setBits (b.reg Reg.pkgStartSts) 31 0 b.elapsedUs

/-- GET_START_REPORT (R721); during the ROM stage the boot ROM answers it on the two buses. -/
def getStartReport (eid : BitVec 16) (byte0 : Byte) : Act Unit := do
  if byte0 = 1 then modStart (fun t => if t.subs.contains eid then t else { t with subs := t.subs ++ [eid] })
  let b ← get
  let ws := b.startSts :: ((List.range 9).map (fun i => b.reg (Reg.pkgStage i)) ++ [b.reg Reg.pkgUnitMem, b.reg Reg.pkgUnitUcie])
  reply .ok (0 :: wordsBytes ws)

def execGetStartReport (ch : Channel) (eid : BitVec 16) (byte0 : Byte) (s : State) : Host.Outcome State Fault Refusal :=
  s.act (do
    let b ← get
    if b.serves ch 0 || b.awake && onBus ch && !b.stageOk 1 then getStartReport eid byte0)

end Sys2Proof.Machine
end

