-- ==== Sys2Proof/Machine/Start.lean ====
section
/-! DEFINITION. Bring-up from the POWER stage on: units, training, the sparing maps
(16_coming_to_life.md R709 to R729; 01_one_package.md R27 to R36, R59, R63 to R68). -/
namespace Sys2Proof.Machine

/-! ### POWER (R684, R709, R713) -/

/-- R684: the time-base unit starts: package time is loaded from COARSE, QUAL is 1. -/
def loadTime : Act Unit := do
  modify (fun b => { b with
    pwr := { b.pwr with on := true },
    aon := { b.aon with ns := b.aon.coarse / 2 ^ 32, frac := b.aon.coarse % 2 ^ 32 * 256 } })
  setFld Reg.aonTimeCtrl 63 63 1

def stagePower (r : RailResult) (us : Nat) : Act Unit := do
  if (← get).mayBegin 2 then
    stageBegin 2
    modify (·.pass us)
    match r with
    | .ok =>
      loadTime
      stageEnd 2 2
    | .rail =>
      stageCause 2 0x02
      stageEnd 2 4
    | .pll =>
      stageCause 2 0x03
      stageEnd 2 4

def execStagePower (r : RailResult) (us : Nat) (s : State) : Host.Outcome State Fault Refusal := s.act (stagePower r us)

/-! ### Units (R723 to R728) -/

/-- Where the state of a unit of stage 3 (UCIe), 4 (HBM) or 5 (DDR5) lies: register and low bit. -/
def unitField (s u : Nat) : Nat × Nat :=
  if s = 3 then (Reg.pkgUnitUcie, 2 * u) else if s = 4 then (Reg.pkgUnitMem, 2 * u) else (Reg.pkgUnitMem, 16 + 2 * u)
/-- A unit's state (R723). -/
def Blk.unitState (b : Blk) (s u : Nat) : Nat := b.fld (unitField s u).1 ((unitField s u).2 + 1) (unitField s u).2
def setUnit (s u v : Nat) : Act Unit := setFld (unitField s u).1 ((unitField s u).2 + 1) (unitField s u).2 v

/-- The units of a kind whose training results are retained (R701). -/
def Blk.results (b : Blk) (s : Nat) : Nat :=
  if s = 3 then b.pwr.keep.ucieRes else if s = 4 then b.pwr.keep.hbmRes else b.pwr.keep.ddrRes
/-- Retain the training results of a unit, or discard them. -/
def keepResult (s u : Nat) (on : Bool) : Act Unit := modify (fun b =>
  let put (m : Nat) : Nat := if on then m ||| 2 ^ u else m &&& (2 ^ 64 - 1 - 2 ^ u)
  let k := b.pwr.keep
  let k := if s = 3 then { k with ucieRes := put k.ucieRes } else if s = 4 then { k with hbmRes := put k.hbmRes }
    else { k with ddrRes := put k.ddrRes }
  { b with pwr := { b.pwr with keep := k } })

/-- METHOD of a stage only rises. -/
def stageMethod (s m : Nat) : Act Unit := do
  setFld (Reg.pkgStage s) 59 56 (max m ((← get).fld (Reg.pkgStage s) 59 56))

/-- R723: a unit begins to train; an excluded one counts as failed. -/
def startUnit (s u : Nat) : Act Unit := do
  let b ← get
  let st := b.unitState s u
  if st = 3 then
    stageUnit s u
    modStart (fun t => { t with failed := t.failed ++ [(s, u)] })
  else
    let full := decide (st ≠ 0) || bit (b.reg Reg.pkgStartCtrl) 0 || !(b.results s).testBit u
    if st = 2 then stageUnit s u
    stageMethod s (if full then 2 else 1)
    modStart (fun t => { t with
      training := t.training ++ [(s, u)], full := if full then t.full ++ [(s, u)] else t.full })

/-- R725: the state of a unit that failed full training advances. -/
def advanceUnit (s u : Nat) : Act Unit := do
  let b ← get
  let slow := decide (s = 4) && !(decide (b.fld Reg.pkgCap 15 12 = 1))
  setUnit s u (match b.unitState s u with
    | 0 => 1
    | 1 => if s = 3 || slow then 3 else 2
    | _ => 3)

/-! ### Dies in and out of service (R65, R713, R715) -/

/-- The usable top of a populated range at a strength level (R346). -/
def usable (populated level : Nat) : Nat := if level = 0 then populated else populated - populated / (128 / 2 ^ level)

/-- MEM_TOP of a range (R30, R36, R346, R715). -/
def Blk.topOf (b : Blk) (i : Nat) : Nat :=
  let level := b.fld Reg.memStrength (2 * i + 1) (2 * i)
  if i < 2 then
    if b.dieOut i then hbmBase i else hbmBase i + usable (4 * b.fld Reg.pkgCap 7 0 * 2 ^ 30) level
  else
    let gib := (((nth b.start.spd none 0).map (·.gib)).getD 0)
    usable (popcount (b.fld Reg.pkgCap 23 16) 8 * gib * 2 ^ 30) level
def setTop (i : Nat) : Act Unit := do setReg (Reg.memTop i) (word ((← get).topOf i))

/-- The lanes of a compute die. -/
def lanesOf (d : Nat) : List Nat := (List.range 24).map (fun k => 2 * k + d)

/-- R65, R715: a compute die goes out of service: no logical core is mapped, its lanes are OFF, its ranges are empty. -/
def dieAway (d : Nat) : Act Unit := do
  modStart (fun t => { t with dieOut := t.dieOut ||| BitVec.ofNat 2 (2 ^ d) })
  setReg (Reg.pkgSmap (2 * d)) 0
  setReg (Reg.pkgSmap (2 * d + 1)) 0
  setTop d
  (lanesOf d).forM (fun n => do
    setFld (Reg.fabLaneSts n) 59 58 0
    laneTo n 0)

/-! ### The UCIE, HBM and DDR5 stages -/

/-- The units of a stage that failed. -/
def Blk.failedOf (b : Blk) (s : Nat) : List Nat := (b.start.failed.filter (fun x => decide (x.1 = s))).map (·.2)

/-- R713: the end of the UCIE stage: modules that trained carry traffic; a host group with none takes its die out. -/
def ucieEnd : Act Unit := do
  let b ← get
  (List.range 16).forM (fun u =>
    if ucieFitted u then setFld Reg.hceLinkSts (ucieUpBit u) (ucieUpBit u) (b2n (!(b.failedOf 3).contains u)) else pure ())
  [0, 1].forM (fun d => do
    if (← get).fld Reg.hceLinkSts (51 + 4 * d) (48 + 4 * d) = 0 then dieAway d)
  stageEnd 3 ((← get).stageGood 3)

/-- R59, R713, R723: the end of the HBM stage. -/
def hbmEnd : Act Unit := do
  let b ← get
  (b.failedOf 4).forM (fun u => dieAway (u / 4))
  [0, 1].forM setTop
  stageEnd 4 ((← get).stageGood 4)

/-- R434, R340: is a module acceptable on this stepping? -/
def Blk.spdOk (b : Blk) (x : Spd) : Bool :=
  x.ecc && decide (x.gib ≤ 256) &&
  (if x.mrdimm then decide (32 ≤ x.gib) && [8000, 8800].contains x.speed && decide (b.fld Reg.pkgIdent 43 40 = 1)
   else decide (16 ≤ x.gib) && [4800, 5600, 6400].contains x.speed)

/-- R33: the largest set in which every channel holds a module identical to the one in D0 and is not left out. -/
def Blk.ddrSet (b : Blk) (out : List Nat) : Option (List Nat) :=
  let same (k : Nat) : Bool := match nth b.start.spd none 0, nth b.start.spd none k with
    | some x, some y => b.spdOk x && b.spdOk y && decide (x.mrdimm = y.mrdimm ∧ x.gib = y.gib ∧ x.speed = y.speed)
    | _, _ => false
  [[0, 1, 2, 3, 4, 5, 6, 7], [0, 2, 4, 6], [0, 4], [0]].find? (fun l => l.all (fun k => same k && !out.contains k))

/-- R434, R435, R723: the speed of the used channels: that of their modules, at most 6400 MT/s on stepping A0, one rated speed
lower when a used channel is reduced. -/
def Blk.ddrSpeedOf (b : Blk) (l : List Nat) : Nat := match nth b.start.spd none 0 with
  | none => 0
  | some x =>
    let v := if b.fld Reg.pkgIdent 43 40 = 0 then min x.speed 6400 else x.speed
    if l.any (fun k => decide (b.unitState 5 k = 2)) then
      if v = 5600 then 4800 else if v = 6400 then 5600 else if v = 8800 then 8000 else v
    else v

/-- R33, R35, R59, R713: the end of the DDR5 stage. -/
def ddrEnd : Act Unit := do
  let b ← get
  setFld Reg.pkgCap 31 24 ((List.range 8).foldl (fun m k => if (nth b.start.spd none k).isSome then m ||| 2 ^ k else m) 0)
  match b.ddrSet (b.failedOf 5) with
  | none => stageEnd 5 4
  | some l =>
    setFld Reg.pkgCap 23 16 (l.foldl (fun m k => m ||| 2 ^ k) 0)
    modStart (fun t => { t with ddrSpeed := b.ddrSpeedOf l })
    setTop 2
    stageEnd 5 ((← get).stageGood 5)

/-- R710, R711, R725: a stage whose units have all passed, failed or been given up ends; the units that failed full training
advance. -/
def unitsCheck (s : Nat) : Act Unit := do
  let b ← get
  if b.stageRes s = 1 && !b.start.training.any (fun x => decide (x.1 = s)) then
    ((b.failedOf s).filter (fun u => decide (b.unitState s u ≠ 3))).forM (advanceUnit s)
    match s with
    | 3 => ucieEnd
    | 4 => hbmEnd
    | 5 => ddrEnd
    | _ => pure ()

/-- STAGE_UCIE. -/
def stageUcie : Act Unit := do
  if (← get).mayBegin 3 then
    stageBegin 3
    ((List.range 24).filter ucieFitted).forM (startUnit 3)
    unitsCheck 3

def execStageUcie (s : State) : Host.Outcome State Fault Refusal := s.act stageUcie

/-- STAGE_HBM (R59, R723): every stack runs at 6.4 Gb/s when one is reduced. -/
def stageHbm : Act Unit := do
  if (← get).mayBegin 4 then
    stageBegin 4
    let b ← get
    let us := bitsOf (b.fld Reg.pkgCap 39 32) 8
    let slow := us.any (fun u => decide (b.unitState 4 u = 2))
    setFld Reg.pkgCap 15 12 (b2n (decide (b.fld Reg.pkgIdent 43 40 = 1 ∧ b.fld Reg.pkgIdent 39 36 = 1) && !slow))
    us.forM (startUnit 4)
    unitsCheck 4

def execStageHbm (s : State) : Host.Outcome State Fault Refusal := s.act stageHbm

/-- STAGE_DDR5 (R33 to R35, R340, R727): `spd` is what the SPD hubs report, D0 first. -/
def stageDdr5 (spd : List (Option Spd)) : Act Unit := do
  if (← get).mayBegin 5 then
    stageBegin 5
    modStart (fun t => { t with spd := spd })
    (List.range 8).forM (fun k => do
      match nth spd none k with
      | none => pure ()
      | some x =>
        let old := nth (← get).pwr.keep.serials 0 k
        if old ≠ x.serial then
          setUnit 5 k 0
          keepResult 5 k false
          modify (fun b => { b with pwr := { b.pwr with keep := { b.pwr.keep with
            serials := setNth (b.pwr.keep.serials ++ List.replicate (8 - b.pwr.keep.serials.length) 0) k x.serial } } }))
    let b ← get
    let excluded := (List.range 8).filter (fun k => (nth spd none k).isSome && decide (b.unitState 5 k = 3))
    excluded.forM (startUnit 5)
    match b.ddrSet excluded with
    | none => stageCause 5 (if (nth spd none 0).isSome then 0x13 else 0x12)
    | some l => l.forM (startUnit 5)
    unitsCheck 5

def execStageDdr5 (spd : List (Option Spd)) (s : State) : Host.Outcome State Fault Refusal := s.act (stageDdr5 spd)

/-- A unit fails: with retained results it is retrained fully at once (R724), else it has failed (R713). -/
def unitFails (s u cause : Nat) : Act Unit := do
  if !(← get).start.full.contains (s, u) then
    stageMethod s 2
    modStart (fun t => { t with full := t.full ++ [(s, u)] })
  else
    stageUnit s u
    stageCause s cause
    keepResult s u false
    modStart (fun t => { t with training := t.training.filter (fun x => decide (x ≠ (s, u))), failed := t.failed ++ [(s, u)] })

/-- UNIT_TRAINING_DONE (R710, R713, R724, R726). -/
def unitTrainingDone (s u : Nat) (pass : Bool) (cause : Nat) : Act Unit := do
  let b ← get
  if b.stageRes s = 1 && b.start.training.contains (s, u) then
    if pass then
      modStart (fun t => { t with training := t.training.filter (fun x => decide (x ≠ (s, u))) })
      keepResult s u true
      if b.unitState s u = 1 then setUnit s u 0
    else unitFails s u cause
    unitsCheck s

def execUnitTrainingDone (stage u : Nat) (pass : Bool) (cause : Byte) (s : State) : Host.Outcome State Fault Refusal :=
  s.act (unitTrainingDone stage u pass cause.toNat)

/-- STAGE_TIMEOUT (R711, R714, R724): units that trained with retained results are retrained fully, under the full limit;
past that limit every unfinished unit fails. -/
def stageTimeout (s : Nat) : Act Unit := do
  let b ← get
  if b.stageRes s = 1 then
    if s = 7 then fabricEnd
    else
      let us := (b.start.training.filter (fun x => decide (x.1 = s))).map (·.2)
      let past := decide (b.fld (Reg.pkgStage s) 59 56 = 2)
      us.forM (fun u => do
        if past then modStart (fun t => { t with full := t.full ++ [(s, u)] })
        unitFails s u 0x10)
      unitsCheck s

def execStageTimeout (stage : Nat) (s : State) : Host.Outcome State Fault Refusal := s.act (stageTimeout stage)

/-! ### COMPUTE (R63 to R68, R653, R729) -/

/-- R653: a suspect core that has passed its self-test is admitted again. -/
def readmit (d : Nat) : Act Unit := do
  let w := (← get).reg (Reg.pkgDefect d)
  let both := bits w 39 20 &&& bits w 59 40
  let keep := 2 ^ 20 - 1 - both
  setFld (Reg.pkgDefect d) 39 20 (bits w 39 20 &&& keep)
  setFld (Reg.pkgDefect d) 59 40 (bits w 59 40 &&& keep)

/-- GOOD of a die (R63). -/
def Blk.goodCores (b : Blk) (d : Nat) : Nat :=
  (if d = 0 then b.sec.fuse.good0 else b.sec.fuse.good1) &&& (2 ^ 20 - 1 - b.fld (Reg.pkgDefect d) 19 0)

/-- R63, R651: PKG_SPARE as the sparing map and the defect record give it; `fenced` is FENCED.  A die out of service has no
spare (log entry 52). -/
def spareReg (d : Nat) : Act Unit := do
  let b ← get
  let off := Reg.pkgSpare d
  let good := bits (b.reg off) 19 0
  let sus := b.fld (Reg.pkgDefect d) 39 20
  let fenced := b.fld off 39 20
  let free := (List.range 20).filter (fun p => good.testBit p && !sus.testBit p && !fenced.testBit p && (b.logOf d p).isNone)
  setFld off 59 40 sus
  setFld off 62 60 (if b.dieOut d then 0 else free.length)

/-- Put the sparing-map entry of a logical core (R67). -/
def putEntry (d l : Nat) (p : Option Nat) : Act Unit :=
  setFld (Reg.pkgSmap (2 * d + l / 8)) (8 * (l % 8) + 7) (8 * (l % 8)) (match p with
    | some p => 128 + p
    | none => 0)

/-- R729: zero every local, cluster and side store, accumulator store and tile register of a die. -/
def Blk.zeroDie (b : Blk) (d : Nat) : Blk :=
  let b := b.zeroRange (localBase d 0) 0x10000000
  { b with
    cores := b.cores.map (fun kc => if kc.1 / 20 = d then (kc.1, { kc.2 with acc := [] }) else kc),
    slots := b.slots.map (fun ks => if keyDie ks.1 = d then (ks.1, { ks.2 with t := Vector.replicate 8 {} }) else ks) }

/-- R63 to R66, R653, R729: the sparing map of a die in service. -/
def mapDie (d : Nat) : Act Unit := do
  readmit d
  let b ← get
  let good := b.goodCores d
  setFld (Reg.pkgSpare d) 39 0 good
  let use := (List.range 20).filter (fun p => good.testBit p && !(b.fld (Reg.pkgDefect d) 39 20).testBit p)
  if use.length < 16 then
    stageCause 6 0x20
    dieAway d
  else
    (List.zip (List.range 16) use).forM (fun lp => putEntry d lp.1 (some lp.2))
  spareReg d
  modify (·.zeroDie d)

/-- STAGE_COMPUTE. -/
def stageCompute (us : Nat) : Act Unit := do
  if (← get).mayBegin 6 then
    stageBegin 6
    modify (·.pass us)
    setFld Reg.memStrength 5 0 ((← get).fld Reg.memStrength 11 6)
    [0, 1].forM (fun d => do if !(← get).dieOut d then mapDie d)
    setReg Reg.pkgSmapGen 0
    [0, 1, 2].forM setTop
    [0, 1].forM (fun d => do if (← get).dieOut d then stageUnit 6 d)
    stageEnd 6 ((← get).stageGood 6)

def execStageCompute (us : Nat) (s : State) : Host.Outcome State Fault Refusal := s.act (stageCompute us)

/-! ### FABRIC and HOST (R439, R709, R714) -/

/-- STAGE_FABRIC. -/
def stageFabric : Act Unit := do
  if (← get).mayBegin 7 then
    stageBegin 7
    setFld Reg.fabCtrl 39 28 ((← get).fld Reg.fabCtrl 51 40)
    let b ← get
    (b.fabricLanes.filter b.leads).forM startLane
    fabricCheck

def execStageFabric (s : State) : Host.Outcome State Fault Refusal := s.act stageFabric

/-- STAGE_HOST: `ok` says whether a host core passes its reset check. -/
def stageHost (ok : Bool) (us : Nat) : Act Unit := do
  if (← get).mayBegin 8 then
    stageBegin 8
    modify (·.pass us)
    setFld Reg.hcePcieCfg 7 6 ((← get).fld Reg.hcePcieCfg 9 8)
    modHost (fun h => { h with pcieDown := [], coresStopped := !ok })
    if ok then stageEnd 8 2
    else
      stageCause 8 0x30
      stageEnd 8 4

def execStageHost (ok : Bool) (us : Nat) (s : State) : Host.Outcome State Fault Refusal := s.act (stageHost ok us)

/-- START_CLEAR (R728). -/
def startClear (src : Src) : Act Unit := do
  logged (srcWho src) Reg.pkgUnitMem (setReg Reg.pkgUnitMem 0)
  logged (srcWho src) Reg.pkgUnitUcie (setReg Reg.pkgUnitUcie 0)

def execStartClear (src : Src) (s : State) : Host.Outcome State Fault Refusal := s.act (startClear src)

end Sys2Proof.Machine
end

