-- ==== Sys2Proof/Machine/Faults.lean ====
section
/-! DEFINITION. Faults, fencing and recovery (14_faults_within_order.md R639 to R660, R785, R789; 01_one_package.md R66). -/
namespace Sys2Proof.Machine

/-! ### Fencing and spares (R66, R649, R651) -/

/-- R649: the incarnation of a core advances. -/
def advanceCore (d p : Nat) : Act Unit := modCore (coreKey d p) (fun c => { c with inc := c.inc + 1, stale := false })

/-- R650, R651: a core is fenced; its SUSPECT bit is set and its PASSED bit cleared. -/
def fenceCore (d p : Nat) : Act Unit := do
  advanceCore d p
  modCore (coreKey d p) (fun c => { c with fenced := true, moving := none, runBf := false })
  setFld (Reg.pkgSpare d) (20 + p) (20 + p) 1
  setFld (Reg.pkgDefect d) (20 + p) (20 + p) 1
  setFld (Reg.pkgDefect d) (40 + p) (40 + p) 0

/-- R63: the spare cores of a die; one whose test runs counts as one (R734). -/
def Blk.spares (b : Blk) (d : Nat) : List Nat :=
  let good := b.fld (Reg.pkgSpare d) 19 0
  let sus := b.fld (Reg.pkgDefect d) 39 20
  (List.range 20).filter (fun p => good.testBit p && !sus.testBit p && !(b.core (coreKey d p)).fenced && (b.logOf d p).isNone &&
    b.cores.all (fun kc => kc.2.moving.all (fun m => decide (m.1 ≠ p)) || decide (kc.1 / 20 ≠ d)))

/-- R66: the spare that takes over from a core: the lowest of its cluster, else the lowest of the die. -/
def Blk.spareFor (b : Blk) (d p : Nat) : Option Nat :=
  ((b.spares d).find? (fun q => decide (q / 4 = p / 4))).or (b.spares d).head?

/-- R66, R68: the sparing map of a die changes. -/
def remap (d l : Nat) (q : Option Nat) : Act Unit := do
  putEntry d l q
  setFld Reg.pkgSmapGen 31 0 ((← get).fld Reg.pkgSmapGen 31 0 + 1)
  spareReg d

/-- Zero a core's local store, accumulator store and registers (R648). -/
def zeroCore (d p : Nat) : Act Unit := do
  modify (·.zeroRange (localBase d p) 0x300000)
  modCore (coreKey d p) (fun c => { c with acc := [] })
  modSlot (slotKey d p false) (fun _ => {})
  modSlot (slotKey d p true) (fun _ => {})

/-- PKG_FLT_STS.WORST_US. -/
def worst (ns : Nat) : Act Unit := do
  let us := min ((ns + 999) / 1000) 65535
  if (← get).fld Reg.pkgFltSts 31 16 < us then setFld Reg.pkgFltSts 31 16 us

/-- The end of an operation of PKG_TEST_CMD (R733, R738). -/
def testEnd (res sub us : Nat) (detail : Word) : Act Unit := do
  match (← get).start.test with
  | none => pure ()
  | some t =>
    modStart (fun x => { x with test := none, noBind := [] })
    setReg Reg.pkgTestSts (word (res <<< 52 ||| t.kind <<< 48 ||| t.die <<< 46 ||| t.unit <<< 40 ||| sub <<< 32 ||| us % 2 ^ 32))
    post {
      code := 0x10, sev := 0, die := if t.kind = 0 then t.die else 2, d0 := ((← get).reg Reg.pkgTestSts).toNat, d1 := detail.toNat,
      d2 := us * 1000, d3 := t.swap }

/-- The microseconds that the operation of PKG_TEST_CMD has run. -/
def Blk.testUs (b : Blk) : Nat := match b.start.test with
  | some t => (b.aon.elapsed - t.since) / 1000
  | none => 0

/-- R734: a fault that takes a core under test ends the test with RESULT 0x5. -/
def takeFromTest (d p : Nat) : Act Unit := do
  match (← get).start.test with
  | some t => if !t.cal && decide (t.kind = 0 ∧ t.die = d ∧ t.unit = p) then testEnd 5 0 (← get).testUs 0
  | none => pure ()

/-- The fields that an event takes from the context of a slot (R661). -/
def Blk.slotEv (b : Blk) (k : Nat) (e : Ev) : Ev :=
  let s := b.slot k
  if s.bound then { e with part := s.part.toNat, ctx := s.ctx.toNat, layer := s.layer.toNat, oper := s.oper.toNat, bf := keyBf k } else e

/-! ### Migration (R641 to R647) -/

/-- A slot key, with the core `p` of a die replaced by `q`. -/
def moveKey (d p q k : Nat) : Nat := if k / 2 = coreKey d p then slotKey d q (keyBf k) else k
/-- An address, with the local store of core `p` replaced by that of `q`. -/
def moveAddr (d p q a : Nat) : Nat :=
  if localBase d p ≤ a ∧ a < localBase d p + 0x300000 then a - localBase d p + localBase d q else a
def moveFrame (d p q f : Nat) : Nat := moveAddr d p q (f * 8192) / 8192
def moveComp (d p q : Nat) (c : Comp) : Comp := { c with slot := moveKey d p q c.slot }

/-- A pin whose shard block a remap takes to `q`: its block is the one that the logical alias reaches (R406, R408, R644; log
entry 103). -/
def movePin (d p q : Nat) (n : Pin) : Pin :=
  { n with blk := moveAddr d p q n.blk, frames := n.frames.map (moveFrame d p q), record := (moveAddr d p q n.record.1, n.record.2) }

/-- R643, step 4: the local store, both slots' registers, program slots, shadows, landing and redirect entries go to `q`; what
the package holds for the members follows them.  R645: live accumulator slots become free and persistent ones lost. -/
def Blk.moveCore (b : Blk) (d p q : Nat) : Blk :=
  let mine (a : Nat) : Bool := decide (localBase d p ≤ a ∧ a < localBase d p + 0x300000)
  let was := b.mem
  let b := (b.zeroRange (localBase d q) 0x300000).zeroRange (localBase d p) 0x300000
  let cells := (was.cells.filter (fun c => mine c.1)).foldl (fun m c => memWrite m (moveAddr d p q c.1) [c.2]) b.mem.cells
  let fmeta := (was.fmeta.filter (fun f => mine (f.1 * 8192))).foldl (fun m f => sset {} m (moveFrame d p q f.1) f.2) b.mem.fmeta
  let b := { b with mem := { b.mem with cells := cells, fmeta := fmeta } }
  let land (l : Landing) : Landing := { l with frames := l.frames.map (moveFrame d p q), recPas := l.recPas.map (moveAddr d p q) }
  let slot (bf : Bool) (b : Blk) : Blk :=
    let s := b.slot (slotKey d p bf)
    (b.setSlot (slotKey d q bf) { s with lands := s.lands.map land }).setSlot (slotKey d p bf) {}
  let b := slot true (slot false b)
  let old := b.core (coreKey d p)
  let acc := (old.acc.filter (fun a => decide (a.2.st = .persistent ∨ a.2.st = .lost))).map (fun a => (a.1, { a.2 with st := .lost, lo := none, hi := none }))
  let b := (b.setCore (coreKey d q) { b.core (coreKey d q) with acc := acc, runBf := old.runBf }).setCore (coreKey d p) { old with acc := [] }
  let b := (b.setReg (Reg.coreBfCtrl d q) (b.reg (Reg.coreBfCtrl d p))).setReg (Reg.coreBfCtrl d p) 0
  let key := moveKey d p q
  let comp := moveComp d p q
  let addr := moveAddr d p q
  { b with
    outst := b.outst.map (fun o => { o with slot := key o.slot }),
    sigs := b.sigs.map (fun g => { g with slot := g.slot.map key }),
    flights := b.flights.map (fun f => { f with slot := key f.slot }),
    engines := b.engines.map (fun e => (e.1, e.2.map (fun x => { x with comp := comp x.comp }))),
    resid := b.resid.map (fun r => { r with pend := r.pend.map (fun w => match w with
      | .reg => .reg
      | .member c => .member (comp c)
      | .run k => .run (key k)) }),
    pins := b.pins.map (movePin d p q),
    sqs := b.sqs.map (fun x => (x.1, x.2.map (fun e => { e with sends := e.sends.map (fun y => (y.1, key y.2)) }))),
    runs := b.runs.map (fun r => { r with
      slot := key r.slot, blk := addr r.blk, flag := r.flag.map addr, gacc := r.gacc.map (fun g => (addr g.1, g.2)) }),
    xpt := { b.xpt with qps := b.xpt.qps.map (fun x => (x.1, x.2.map (fun y => { y with
      cmds := y.cmds.map (fun c => { c with comp := comp c.comp }) }))) },
    col := { b.col with
      colls := b.col.colls.map (fun c => { c with comp := comp c.comp }),
      perms := b.col.perms.map (fun c => { c with comp := comp c.comp }) } }

/-- R643, step 3: have the instructions issued on a core completed?  Commands that engines hold go on (log entry 48). -/
def Blk.drained (b : Blk) (d p : Nat) : Bool :=
  [slotKey d p false, slotKey d p true].all (fun k => (b.slot k).underReady && b.flights.all (fun f => decide (f.slot ≠ k)))

/-- R753: the last records of the old core's bound slots; the deltas of a new core start from zero. -/
def finalSamples (d p : Nat) (q : Option Nat) : Act Unit :=
  [false, true].forM (fun bf => do
    let k := slotKey d p bf
    quietly (sampleSlot k true)
    match q with
    | some q => modify (fun b =>
        let j := slotKey d q bf
        { b with dbg := { b.dbg with sampled := sset {} (sset {} b.dbg.sampled k {}) j ⟨b.cycCounts j, b.cenCounts j, b.now, false⟩ } })
    | none => pure ())

/-- R643, steps 4 to 6, with the report of R662; `swap` says that a self-test asked for the move (R731). -/
def migrateEnd (d p q l : Nat) (swap : Bool) : Act Unit := do
  let b ← get
  let ns := b.aon.elapsed - (b.core (coreKey d p)).moveAt
  finalSamples d p (some q)
  modify (·.moveCore d p q)
  if swap then
    advanceCore d p
    modCore (coreKey d p) (fun c => { c with moving := none, runBf := false })
    modStart (fun t => { t with test := t.test.map (fun x => { x with swap := ns }) })
    remap d l (some q)
  else
    fenceCore d p
    remap d l (some q)
    countFld Reg.pkgFltSts 63 48 1
    let b ← get
    post (b.slotEv (slotKey d q false) {
      code := 0x02, sev := 1, die := d, pcore := p, lcore := l, inc := (b.core (coreKey d p)).inc.toNat, d0 := p <<< 5 ||| q, d1 := ns })
  worst ns
  modify (·.wakeScopes)

/-- R643, steps 1 and 2; the later steps follow at once when nothing is left to complete. -/
def migrateTo (d p q l : Nat) (swap : Bool) : Act Unit := do
  let b ← get
  modCore (coreKey d p) (fun c => { c with moving := some (q, swap), moveAt := b.aon.elapsed })
  if !swap then takeFromTest d q
  if (← get).drained d p then migrateEnd d p q l swap

/-- R641: is a core in migrate class?  An overflowed bucket is a fact of the event; check events are counted. -/
def Blk.migrates (b : Blk) (d p : Nat) : MigrateWhy → Bool
  | .arith =>
    let n := b.fld Reg.pkgFltCtrl 47 40
    let win := max 1 (b.fld Reg.pkgFltCtrl 39 24) * 1000000
    decide (n ≠ 0) && decide (n ≤ ((b.core (coreKey d p)).achk.filter (fun t => decide (b.aon.elapsed ≤ t + win))).length)
  | .sram source => bit (b.reg Reg.pkgFltCtrl) 0 && decide (source = 16 + d ∨ source = 18 + d)

/-- The number of a cause in an event's DETAIL (R662): 0 for the arithmetic check, else the error source. -/
def whySource : MigrateWhy → Nat
  | .arith => 0
  | .sram s => s

/-- CORE_MIGRATE (R641 to R643). -/
def coreMigrate (d p : Nat) (why : MigrateWhy) : Act Unit := do
  let b ← get
  match b.logOf d p with
  | none => pure ()
  | some l =>
    if b.migrates d p why && !b.dieOut d && !b.moving d p then
      match b.spareFor d p with
      | some q => migrateTo d p q l false
      | none =>
        setFld (Reg.pkgDefect d) (20 + p) (20 + p) 1
        setFld (Reg.pkgDefect d) (40 + p) (40 + p) 0
        spareReg d
        post { code := 0x04, sev := 1, die := d, pcore := p, lcore := l, inc := (b.core (coreKey d p)).inc.toNat, d0 := whySource why }

def execCoreMigrate (die : Fin 2) (p : Fin 20) (why : MigrateWhy) (s : State) : Host.Outcome State Fault Refusal :=
  s.act (coreMigrate die.val p.val why)

/-- A migration that waits for its drain goes on when the drain is over; the package looks on its idle ticks (log entry 2). -/
def migrateStep : Act Unit := do
  let b ← get
  b.cores.forM (fun kc => do
    match kc.2.moving with
    | none => pure ()
    | some (q, swap) =>
      let d := kc.1 / 20
      let p := kc.1 % 20
      let b ← get
      if b.drained d p then
        match b.logOf d p with
        | some l => migrateEnd d p q l swap
        | none => modCore kc.1 (fun c => { c with moving := none }))

/-! ### Core loss (R647, R648) -/

/-- R648, steps 2 and 5: what a slot still has under way is over: no flag is written and no signal given, and each command
completes with 0x01. -/
def dropSlot (k : Nat) : Act Unit := do
  let mine (c : Comp) : Bool := decide (c.slot = k)
  let quiet (c : Comp) : Comp := { c with nofault := true, flag := none, sig := none, crec := none }
  modify (fun b => { b with sigs := b.sigs.filter (fun g => decide (g.slot ≠ some k)) })
  (← get).engines.forM (fun e => do
    modify (fun b => b.setEng e.1 (e.2.filter (fun x => !mine x.comp)))
    (e.2.filter (fun x => mine x.comp)).forM (fun x => completeCmd (quiet x.comp) (e.1 / 8) 0x01 0))
  (← get).xpt.qps.forM (fun x => match x.2 with
    | none => pure ()
    | some q => do
      let gone := q.cmds.filter (fun c => mine c.comp)
      modQp x.1 (fun q => { q with
        cmds := q.cmds.filter (fun c => !mine c.comp),
        queue := q.queue.filter (fun s => !gone.any (fun c => decide (c.comp.id = s.cmd))) })
      gone.forM (fun c => completeCmd (quiet c.comp) c.die 0x01 0))
  let b ← get
  (b.col.colls.filter (fun c => mine c.comp)).forM (fun c => do
    modColl c.comp.id (fun c => { c with comp := quiet c.comp })
    endColl c.comp.id 0x01 true)
  (b.col.perms.filter (fun c => mine c.comp)).forM (fun c => do
    modPerm c.comp.id (fun c => { c with comp := quiet c.comp })
    endPerm c.comp.id 0x01 true)
  (b.runs.filter (fun r => decide (r.slot = k))).forM (fun r => finish r.id)
  modify (fun b => { b with
    runs := b.runs.filter (fun r => decide (r.slot ≠ k)),
    sqs := b.sqs.map (fun x => (x.1, x.2.map (fun e => { e with sends := e.sends.filter (fun y => decide (y.2 ≠ k)) }))),
    resid := b.resid.map (fun r => { r with pend := r.pend.filter (fun w => match w with
      | .reg => true
      | .member c => !mine c
      | .run j => decide (j ≠ k)) }) })
  (b.outst.filter (fun o => decide (o.slot = k ∧ o.kind = .place))).forM (fun o => finish o.id)

/-- R648, steps 4 and 5, for one slot. -/
def loseSlot (k : Nat) : Act Unit := do
  let s := (← get).slot k
  if s.bound && decide (s.stt = 1) then modify (·.raiseLast k 0x06)
  dropSlot k
  discardLandings k true

/-- A core-loss fault (R648), with the report of R662. -/
def coreLoss (d p source : Nat) (since : Nat) : Act Unit := do
  let b ← get
  if (b.core (coreKey d p)).fenced || b.dieOut d then return ()
  let l := b.logOf d p
  takeFromTest d p
  finalSamples d p none
  fenceCore d p
  let now ← get
  let q := if l.isSome then now.spareFor d p else none
  match l with
  | none => spareReg d
  | some l =>
    match q with
    | some q =>
      takeFromTest d q
      remap d l (some q)
      zeroCore d q
      modify (fun b => { b with pins := b.pins.map (movePin d p q) })
    | none => remap d l none
  let lost := (b.slotEv (slotKey d p false) {
    code := 0x03, sev := 2, die := d, pcore := p, lcore := l.getD 31, inc := ((← get).core (coreKey d p)).inc.toNat,
    d0 := q.getD 31, d1 := source, d2 := b.aon.elapsed - since })
  loseSlot (slotKey d p false)
  loseSlot (slotKey d p true)
  modCore (coreKey d p) (fun c => { c with acc := [] })
  countFld Reg.pkgFltSts 47 32 1
  worst (b.aon.elapsed - since)
  post lost
  colSettle

/-- CORE_FAULT_DETECT (R640, R648). -/
def execCoreFaultDetect (die : Fin 2) (p : Fin 20) (source : Nat) (s : State) : Host.Outcome State Fault Refusal :=
  s.act (do coreLoss die.val p.val source (← get).aon.elapsed)

/-- MIGRATION_DRAIN_TIMEOUT (R647). -/
def migrationDrainTimeout (d p : Nat) : Act Unit := do
  let b ← get
  if b.moving d p && !b.drained d p then coreLoss d p 0 (b.core (coreKey d p)).moveAt

def execMigrationDrainTimeout (die : Fin 2) (p : Fin 20) (s : State) : Host.Outcome State Fault Refusal :=
  s.act (migrationDrainTimeout die.val p.val)

/-! ### Die faults and control cores (R654 to R656, R664) -/

/-- R664: FAULT_N stays asserted until the next warm reset or cold power-on. -/
def assertFault : Act Unit := modify (fun b => { b with pwr := { b.pwr with faultN := true } })

/-- A die fault (R654, R659). -/
def dieFault (d struct addr : Nat) : Act Unit := do
  if (← get).dieOut d then return ()
  (List.range 20).forM (fun p => do
    advanceCore d p
    modCore (coreKey d p) (fun c => { c with fenced := true, moving := none })
    setFld (Reg.pkgSpare d) (20 + p) (20 + p) 1)
  (← get).slots.forM (fun ks => if keyDie ks.1 = d then loseSlot ks.1 else pure ())
  modify (fun b => { b with flights := b.flights.filter (fun f => decide (keyDie f.slot ≠ d)) })
  ((← get).cacheOf d).forM (fun n => do
    match (← get).qp n with
    | some q => if q.err.isNone then qpError n 0x08 q.una
    | none => pure ())
  hostLinkDown d
  (lanesOf d).forM (fun n => do if (← get).leads n && decide ((← get).laneSt n = 5) then leaveUp n false)
  dieAway d
  setFld Reg.pkgSmapGen 31 0 ((← get).fld Reg.pkgSmapGen 31 0 + 1)
  spareReg d
  post { code := 0x05, sev := 3, die := d, d0 := struct, d1 := addr }
  assertFault
  colSettle

def execDieFault (die : Fin 2) (struct addr : Nat) (s : State) : Host.Outcome State Fault Refusal := s.act (dieFault die.val struct addr)

/-- The control cores of a die that live (R655): four on a compute die, two on the host die. -/
def Blk.liveCtl (b : Blk) (d : Nat) : List Nat :=
  (List.range (if d = 2 then 2 else 4)).filter (fun c => !b.start.ccFenced.contains (d * 4 + c))

/-- WATCHDOG_EXPIRY (R655, R656): the lowest-numbered live sibling takes over; after three expiries, or with no sibling to restart
it, the control core is fenced. -/
def watchdogExpiry (d c : Nat) : Act Unit := do
  let b ← get
  if (b.liveCtl d).contains c && (decide (d = 2) || !b.dieOut d) then
    let k := d * 4 + c
    let n := sget 0 b.start.wdogs k + 1
    let inc := sget 1 b.start.ccInc k + 1
    modStart (fun t => { t with wdogs := sset 0 t.wdogs k n, ccInc := sset 1 t.ccInc k (inc % 2 ^ 16) })
    let live := (b.liveCtl d).filter (fun x => decide (x ≠ c))
    if 3 ≤ n ∨ live = [] then
      modStart (fun t => { t with ccFenced := t.ccFenced ++ [k] })
      post { code := 0x07, sev := 2, die := d, pcore := c, inc := inc % 2 ^ 16, d0 := live.length }
      if live = [] then (if d < 2 then dieFault d 0 0 else assertFault)
    else post { code := 0x06, sev := 1, die := d, pcore := c, inc := inc % 2 ^ 16, d0 := n }

def execWatchdogExpiry (die : Fin 3) (cc : Fin 4) (s : State) : Host.Outcome State Fault Refusal := s.act (watchdogExpiry die.val cc.val)

/-- PKG_EVT_CFG_WRITE (R660): EN going from 0 to 1 zeroes both indices; BASE stays while EN is 1. -/
def pkgEvtCfgWrite (v : Word) (b : Blk) : Blk :=
  let off := Reg.pkgEvtCfg
  let old := b.reg off
  let w := ((regDesc off).map (fun d => d.write old v)).getD 0
  let w := if bit old 63 then setBits w 47 12 (bits old 47 12) else w
  let b := b.setReg off w
  if bit w 63 && !bit old 63 then b.setReg Reg.pkgEvtIdx 0 else b

def execPkgEvtCfgWrite (src : Src) (v : Word) (s : State) : Host.Outcome State Fault Refusal :=
  s.regw src Reg.pkgEvtCfg v (modify (pkgEvtCfgWrite v))

end Sys2Proof.Machine
end

