-- ==== Sys2Proof/Machine/SelfTest.lean ====
section
/-! DEFINITION. On-demand tests and calibration (16_coming_to_life.md R730 to R740). -/
namespace Sys2Proof.Machine

/-- R730: may a unit be tested (`cal` false) or calibrated? -/
def Blk.testUnit (b : Blk) (cal : Bool) (kind d u : Nat) : Bool :=
  b.started && b.awake && !b.dozing && (match kind with
    | 0 => !cal && decide (d < 2 ∧ u < 20) && !b.dieOut d
    | 1 => decide (u < 48) && !b.dieOut (laneDie u)
    | 2 => cal && decide (u < 8) && (b.fld Reg.pkgCap 39 32).testBit u && !b.dieOut (u / 4)
    | 3 => cal && decide (u < 8) && (b.fld Reg.pkgCap 31 24).testBit u
    | 4 => cal && ucieFitted u && (match ucieDie u with
        | some e => !b.dieOut e
        | none => !b.dieOut 0 && !b.dieOut 1)
    | _ => false)

/-- A new operation in PKG_TEST_STS. -/
def testBegin (cal : Bool) (kind d u : Nat) (waits : Bool) : Act Unit := do
  modify (fun b => { b with start := { b.start with test := some ⟨cal, kind, d, u, waits, b.aon.elapsed, 0⟩ } })
  setReg Reg.pkgTestSts (word (1 <<< 63 ||| b2n waits <<< 62 ||| kind <<< 48 ||| d <<< 46 ||| u <<< 40))

/-- A request that ends at once with a result. -/
def testRefuse (cal : Bool) (kind d u res : Nat) : Act Unit := do
  testBegin cal kind d u false
  testEnd res 0 0 0

/-- R732: the test of an active core without a spare begins: no bind may name its logical core. -/
def testClaim (d p : Nat) : Act Unit := do
  let b ← get
  match b.logOf d p with
  | some l => modStart (fun x => { x with noBind := [(d, l)] })
  | none => pure ()

/-- Are both context slots of a core unbound? -/
def Blk.coreIdle (b : Blk) (d p : Nat) : Bool := !(b.slot (slotKey d p false)).bound && !(b.slot (slotKey d p true)).bound

/-- R732, R735: a waiting test begins when its core is idle or its lane has left UP; the package looks when it is asked and on
its idle ticks (log entry 2). -/
def testStep : Act Unit := do
  let b ← get
  match b.start.test with
  | none => pure ()
  | some t =>
    if t.waits && (if t.kind = 0 then b.coreIdle t.die t.unit else decide (b.laneSt (b.govern t.unit) ≠ 5)) then
      modStart (fun x => { x with test := some { t with waits := false, since := b.aon.elapsed } })
      setFld Reg.pkgTestSts 62 62 0
      if t.kind = 0 then testClaim t.die t.unit

/-- PKG_TEST_CMD TEST (R730 to R732, R735). -/
def testCmd (v : Word) : Act Unit := do
  let b ← get
  let kind := bits v 55 52
  let d := bits v 47 46
  let u := bits v 45 40
  let idle := bit v 59
  if b.start.test.isSome then return ()
  if !b.testUnit false kind d u then testRefuse false kind d u 4
  else if kind = 0 then
    match b.logOf d u with
    | none => testBegin false 0 d u false
    | some l =>
      match b.spareFor d u with
      | some q =>
        if b.moving d u then testRefuse false kind d u 3
        else
          testBegin false 0 d u false
          migrateTo d u q l true
      | none =>
        if !idle then testRefuse false kind d u 3
        else
          testBegin false 0 d u true
          testStep
  else if b.laneSt (b.govern u) = 5 then
    if idle then testBegin false kind d u true else testRefuse false kind d u 3
  else testBegin false kind d u false

def execTest (src : Src) (v : Word) (s : State) : Host.Outcome State Fault Refusal := s.regw src Reg.pkgTestCmd v (testCmd v)

/-- PKG_TEST_CMD CALIBRATE (R730, R736). -/
def calibrateCmd (v : Word) : Act Unit := do
  let b ← get
  let kind := bits v 55 52
  let d := bits v 47 46
  let u := bits v 45 40
  if b.start.test.isNone then
    if b.testUnit true kind d u then testBegin true kind d u false else testRefuse true kind d u 4

def execCalibrate (src : Src) (v : Word) (s : State) : Host.Outcome State Fault Refusal := s.regw src Reg.pkgTestCmd v (calibrateCmd v)

/-- PKG_TEST_CMD ABORT (R740). -/
def testAbort : Act Unit := do testEnd 5 0 (← get).testUs 0

def execTestAbort (src : Src) (s : State) : Host.Outcome State Fault Refusal := s.regw src Reg.pkgTestCmd (word (3 <<< 60)) testAbort

/-- R736, R737: new calibration results replace the retained training results of a unit. -/
def calibrated (kind u : Nat) : Act Unit :=
  match kind with
  | 1 => modPort u (fun p => { p with coeff := true })
  | 2 => keepResult 4 u true
  | 3 => keepResult 5 u true
  | _ => keepResult 3 u true

/-- R652, R733: what a core test leaves. -/
def coreTested (d p : Nat) (pass : Bool) : Act Unit := do
  if pass then
    if ((← get).fld (Reg.pkgDefect d) 39 20).testBit p then setFld (Reg.pkgDefect d) (40 + p) (40 + p) 1
  else
    setFld (Reg.pkgDefect d) p p 1
    setFld (Reg.pkgDefect d) (20 + p) (20 + p) 0
    advanceCore d p
    modCore (coreKey d p) (fun c => { c with fenced := true })
    setFld (Reg.pkgSpare d) (20 + p) (20 + p) 1
    setFld (Reg.pkgSpare d) p p 0
    match (← get).logOf d p with
    | some l => remap d l none
    | none => pure ()
  spareReg d

/-- TEST_COMPLETE (R733, R735, R736, R738). -/
def testComplete (pass : Bool) (sub us : Nat) (detail : Word) : Act Unit := do
  let b ← get
  match b.start.test with
  | none => pure ()
  | some t =>
    if !t.waits && !(decide (t.kind = 0) && b.moving t.die t.unit) then
      if t.cal then
        if pass then calibrated t.kind t.unit
      else if t.kind = 0 then coreTested t.die t.unit pass
      else if pass then
        let n := b.govern t.unit
        if b.laneSt n ≠ 5 then
          setFld (Reg.fabLaneSts n) 35 32 0
          startLane n
      testEnd (if pass then 1 else 2) (if pass then 0 else sub) us detail

def execTestComplete (pass : Bool) (sub : Byte) (us : Nat) (detail : Word) (s : State) : Host.Outcome State Fault Refusal :=
  s.act (testComplete pass sub.toNat us detail)

/-- AUTO_CALIBRATION (R737): one unit of an automatic pass; on-demand work goes first. -/
def autoCalibration (kind u : Nat) : Act Unit := do
  let b ← get
  if bit (b.reg Reg.pkgCalCtrl) 0 && b.start.test.isNone && b.testUnit true kind 0 u then calibrated kind u

def execAutoCalibration (kind u : Nat) (s : State) : Host.Outcome State Fault Refusal := s.act (autoCalibration kind u)

end Sys2Proof.Machine
end

