-- ==== Sys2Proof/Machine/Power.lean ====
section
/-! DEFINITION. Supplies, heat, time, power states and resets (15_power_time_reset.md R667 to R708;
18_balls_and_electrical.md R769 to R773, R781). -/
namespace Sys2Proof.Machine

def modPwr (f : PwrSt → PwrSt) : Act Unit := modify (fun b => { b with pwr := f b.pwr })

/-! ### The Persistent image (R701, R704 to R707) -/

/-- The /ret fields that differ from their Reset value, by register. -/
def Blk.retained (b : Blk) : SMap Word :=
  b.regs.filterMap (fun kw => match regDesc kw.1 with
    | some d => if (kw.2 ^^^ d.reset) &&& d.ret = 0 then none else some (kw.1, kw.2 &&& d.ret)
    | none => none)

/-- The newest copy of the Persistent image, valid or not. -/
def PwrSt.newest (p : PwrSt) : NorCopy := if p.norB.seq ≤ p.norA.seq then p.norA else p.norB

/-- NOR_PEND (R704): a change awaits its SPI NOR write. -/
def Blk.norPend (b : Blk) : Bool :=
  !b.pwr.newest.valid || b.pwr.newest.regs != b.retained || b.pwr.newest.keep != b.pwr.keep

/-- R705: the copy with the lower sequence number takes the image. -/
def writeNor : Act Unit := modify (fun b =>
  let c : NorCopy := ⟨b.pwr.newest.seq + 1, true, b.retained, b.pwr.keep⟩
  { b with pwr := if b.pwr.norB.seq ≤ b.pwr.norA.seq then { b.pwr with norB := c } else { b.pwr with norA := c } })

/-- PERSISTENT_NOR_WRITE (R704, R705, R772): not while RESET_N is low. -/
def persistentNorWrite : Act Unit := do
  let b ← get
  if b.pwr.aux && !b.pwr.rstLow && b.norPend then writeNor

def execPersistentNorWrite (s : State) : Host.Outcome State Fault Refusal := s.act persistentNorWrite

/-! ### Resets (R62, R352, R698 to R703) -/

/-- The bits of a register that a start keeps beside its /ret fields: Always-on items (R701). -/
def startKeeps (sleep : Bool) (off : Nat) : Word :=
  if off = Reg.aonAlarm ∨ off = Reg.aonLost then -1
  else if off = Reg.aonPwrSts then word (15 <<< 44)
  else if off = Reg.macWakeSts ∧ sleep then -1
  else 0

/-- What a start leaves of the registers: /ret fields and Always-on items keep their values, the rest is reset. -/
def warmRegs (sleep : Bool) (m : SMap Word) : SMap Word :=
  m.filterMap (fun kw => match regDesc kw.1 with
    | some d =>
      let k := startKeeps sleep kw.1
      let v := (kw.2 &&& k) ||| (d.warm kw.2 &&& ~~~k)
      if v = d.reset then none else some (kw.1, v)
    | none => none)

/-- Is it an address of a local, cluster or side store? -/
def inStores (a : Nat) : Bool := decide (0x080000000000 ≤ a ∧ a < 0x080100000000)

/-- R701: what a start leaves of the package: stores are zeroed, the frames of the tiers are kept but unwritten once GEN advances
(R352, R354), everything that works is empty. -/
def Blk.cleared (b : Blk) (regs : SMap Word) : Blk :=
  { free := b.free, regs := regs,
    mem := {
      cells := b.mem.cells.filter (fun c => !inStores c.1),
      fmeta := b.mem.fmeta.filter (fun f => !inStores (f.1 * 8192)) },
    host := { coreResets := b.host.coreResets, fwFaults := b.host.fwFaults },
    link := { ports := b.link.ports.filterMap (fun kp => if kp.2.coeff then some (kp.1, { coeff := true }) else none) },
    sec := { b.sec with tls := false, tear := 0, agent := none },
    pwr := { b.pwr with
      on := false, asleep := false, cause := 0, thermTrip := false, faultN := false, gpioLvl := 0, resetWait := false,
      hostSlow := 0, off := false, diesOff := false },
    aon := b.aon,
    start := { began := b.aon.elapsed, subs := b.start.subs, msgs := b.start.msgs },
    dbg := { bmc := b.dbg.bmc } }

/-- The cause bits of AON_LOST, by bit number. -/
def causeBit (n : Nat) : Nat := 2 ^ n

/-- A start begins (R352, R62): the cause bits are set, GEN advances by one, the start is counted, the fuses show. -/
def startBegins (causes : Nat) : Act Unit := do
  setReg Reg.aonLost ((← get).reg Reg.aonLost ||| word causes)
  setFld Reg.memSeal 15 0 ((← get).fld Reg.memSeal 15 0 + 1)
  countFld Reg.pkgStartCtrl 31 16 1
  match (← get).pwr.keep.number with
  | some w =>
    setReg Reg.pkgNumber w
    modPwr (fun p => { p with keep := { p.keep with number := none } })
  | none => pure ()
  loadFuses

/-- A warm start: after a warm reset, main loss or Sleep (R698, R702). -/
def warmStart (sleep : Bool) (causes : Nat) : Act Unit := do
  modify (fun b => b.cleared (warmRegs sleep b.regs))
  startBegins causes

/-- R675: a warm reset waits while a sensor reads 95 °C or more. -/
def requestReset (causes : Nat) : Act Unit := do
  let b ← get
  if 380 ≤ b.fld Reg.aonPwrMon 31 20 then modPwr (fun p => { p with resetWait := true, cause := p.cause ||| causes })
  else warmStart false (b.pwr.cause ||| causes)

/-- SENSORS_BELOW_RESET_LIMIT (R675). -/
def sensorsBelow : Act Unit := do
  let b ← get
  if b.pwr.resetWait then warmStart false b.pwr.cause

def execSensorsBelowResetLimit (s : State) : Host.Outcome State Fault Refusal := s.act sensorsBelow

/-- Who asks for a power command, as change-log principal and channel. -/
def Requester.channel : Requester → Channel
  | .reg .host => .host
  | .reg .control => .firmware
  | .mgmt ch => ch

/-- A power command (R689, R695, R698, R700): a register write is ignored while a command executes, and a management request
of a class needs its channel's permission (R624). -/
def powerCmd (r : Requester) (cls : Nat) (a : Act Unit) : Act Unit := do
  match r with
  | .reg _ => if !bit ((← get).reg Reg.aonPwrSts) 60 then a
  | .mgmt ch => request' ch cls true (do
      a
      reply .ok)

/-- Does the key of a reset command open it (AON_PWR_CMD)? -/
def keyOk (r : Requester) (key : Byte) : Bool := match r with
  | .reg _ => key == 0xA5
  | .mgmt _ => true

def execWarmReset (src : Requester) (key : Byte) (s : State) : Host.Outcome State Fault Refusal :=
  s.act (powerCmd src 2 (if keyOk src key then requestReset (causeBit 49) else pure ()))

/-- The registers of the defect record, which a factory restore leaves (R700). -/
def isDefect (off : Nat) : Bool := decide (off = Reg.pkgDefect 0 ∨ off = Reg.pkgDefect 1)

/-- A register with its Persistent fields at their Reset values. -/
def factoryReg (kw : Nat × Word) : Option (Nat × Word) := match regDesc kw.1 with
  | some d =>
    let v := if isDefect kw.1 then kw.2 else (kw.2 &&& ~~~d.ret) ||| (d.reset &&& d.ret)
    if v = d.reset then none else some (kw.1, v)
  | none => none

/-- What a factory restore leaves of the Persistent items (R700). -/
def Blk.factory (b : Blk) : Blk :=
  { b with
    regs := b.regs.filterMap factoryReg,
    pwr := { b.pwr with keep := { b.pwr.keep with gpioOut := 0, serials := [], number := none } } }

/-- R700: every Persistent item takes its Reset value but for the defect record, the logs are emptied, both copies are
written, and a warm reset follows. -/
def factoryRestore (ch : Channel) : Act Unit := do
  modify (fun b => b.factory.serialDefault)
  changeLog (chanWho ch) 0x07 0 0 0
  writeNor
  writeNor
  requestReset (causeBit 49)

/-- R624, R626: a factory restore that a channel asks for. -/
def restoreAsked (ch : Channel) : Act Unit := do
  if (← get).policy ch 4 then factoryRestore ch
  else
    denied ch true
    setFld Reg.aonPwrSts 55 48 0x02

/-- FACTORY_RESTORE (R624, R626, R700): a write of partition 0 counts as a host-register request of class C4. -/
def execFactoryRestore (src : Requester) (key : Byte) (s : State) : Host.Outcome State Fault Refusal :=
  s.act (powerCmd src 4 (if keyOk src key then restoreAsked (Requester.channel src) else pure ()))

/-- RESET_ASSERT (R697, R699): a warm reset that lasts while RESET_N is low; from Sleep it is the wake. -/
def resetAssert : Act Unit := do
  let b ← get
  modPwr (fun p => { p with rstLow := true })
  if b.pwr.aux && !b.pwr.rstLow then
    if b.pwr.asleep then setFld Reg.aonPwrSts 47 44 7
    requestReset (causeBit 49)

def execResetAssert (s : State) : Host.Outcome State Fault Refusal := s.act resetAssert

/-- RESET_RELEASE (R699): bring-up may begin. -/
def execResetRelease (s : State) : Host.Outcome State Fault Refusal := s.act (modPwr (fun p => { p with rstLow := false }))

/-! ### Supplies (R667 to R670, R773) -/

/-- A register filled from its retained fields (R698). -/
def filledReg (kw : Nat × Word) : Option (Nat × Word) := match regDesc kw.1 with
  | some d => some (kw.1, (d.reset &&& ~~~d.ret) ||| kw.2)
  | none => none

/-- The registers filled from a copy of the Persistent image. -/
def filled (c : Option NorCopy) : SMap Word := match c with
  | some x => x.regs.filterMap filledReg
  | none => []

/-- The Persistent items that no register holds, from a copy. -/
def keepOf (c : Option NorCopy) : Keep := match c with
  | some x => x.keep
  | none => {}

/-- AUX_RISE (R683, R698, R706): a cold power-on: the retained store is filled from the valid copy with the higher sequence number;
with none valid the factory defaults apply and both copies are written.  `badA` and `badB` say which copy fails its check. -/
def auxRise (badA badB : Bool) : Act Unit := do
  let b ← get
  if !b.pwr.aux then
    let p : PwrSt := {
      b.pwr with
      aux := true, main := false, powerFail := true, norA := { b.pwr.norA with valid := b.pwr.norA.valid && !badA },
      norB := { b.pwr.norB with valid := b.pwr.norB.valid && !badB } }
    let c := p.copy
    let b := { b with
      pwr := { p with keep := keepOf c }, aon := { elapsed := b.aon.elapsed },
      sec := { b.sec with unlocked := false }, dbg := {}, link := {}, start := {} }
    set (b.cleared (filled c))
    if c.isNone then
      modify Blk.serialDefault
      writeNor
      writeNor
    startBegins (causeBit 48 ||| (if c.isNone then causeBit 54 else 0))

def execAuxRise (badA badB : Bool) (s : State) : Host.Outcome State Fault Refusal := s.act (auxRise badA badB)

/-- AUX_LOSS (R670, R773). -/
def execAuxLoss (s : State) : Host.Outcome State Fault Refusal :=
  s.act (modPwr (fun p => { p with aux := false, main := false, on := false, asleep := false, off := false, resetWait := false }))

/-- MAIN_GOOD (R668, R669): after main loss the package starts as after a warm reset. -/
def mainGood : Act Unit := do
  let b ← get
  if b.pwr.aux && !b.pwr.main then
    modPwr (fun p => { p with main := true, powerFail := false })
    if b.pwr.off && !b.pwr.resetWait then
      setFld Reg.aonPwrSts 47 44 6
      warmStart false b.pwr.cause

def execMainGood (s : State) : Host.Outcome State Fault Refusal := s.act mainGood

/-- R669: what main loss does; in Sleep nothing but the always-on domain is powered, and it stays in Sleep. -/
def mainLoss (lowest : Nat) : Act Unit := do
  let b ← get
  if b.pwr.aux && b.pwr.main then
    let _ ← retainEvent { code := 0x11, sev := 3, d0 := lowest }
    modPwr (fun p => { p with
      main := false, powerFail := true, on := false, off := !p.asleep,
      cause := if p.asleep then p.cause else p.cause ||| causeBit 51 })

def execMainLoss (lowest : Nat) (s : State) : Host.Outcome State Fault Refusal := s.act (mainLoss lowest)
/-- MAIN_TRIP (R668): conversion off at once, then as main loss. -/
def execMainTrip (vin : Nat) (s : State) : Host.Outcome State Fault Refusal := s.act (mainLoss vin)

/-- The throttle level takes a value (R673). -/
def setLevel (n : Nat) : Act Unit := setFld Reg.aonPwrMon 19 16 (min n 12)

/-- MAIN_OVERVOLTAGE (R668): level 12 while the condition lasts. -/
def execMainOvervoltage (vin : Nat) (s : State) : Host.Outcome State Fault Refusal :=
  s.act (do
    if (← get).pwr.on then
      setFld Reg.aonPwrMon 63 48 (min vin 65535)
      setFld Reg.aonPwrMon 13 13 1
      setLevel 12)

/-- OVERVOLTAGE_END (R668): the hold ends; the level falls by the steps of R673. -/
def execOvervoltageEnd (s : State) : Host.Outcome State Fault Refusal := s.act (setFld Reg.aonPwrMon 13 13 0)

/-! ### Envelope and heat (R671 to R675) -/

/-- POWER_SAMPLE (R672, R673): `watts` is the mean input power, and the flags say whether a window is above its bound: one step
up, or one down when nothing holds the level. -/
def powerSample (watts : Nat) (high : Bool) : Act Unit := do
  let b ← get
  if b.pwr.on then
    setFld Reg.aonPwrMon 47 32 (min watts 65535)
    let n := b.fld Reg.aonPwrMon 19 16
    if high then
      setFld Reg.aonPwrMon 15 15 1
      setLevel (n + 1)
    else
      setFld Reg.aonPwrMon 15 15 0
      if !bit (b.reg Reg.aonPwrMon) 14 && !bit (b.reg Reg.aonPwrMon) 13 then setLevel (n - 1)

def execPowerSample (watts : Nat) (over100ms over1ms : Bool) (s : State) : Host.Outcome State Fault Refusal :=
  s.act (powerSample watts (over100ms || over1ms))

/-- THERMAL_THROTTLE (R674): the sensors read these quarters of a degree. -/
def thermalThrottle (sensors : List Nat) : Act Unit := do
  let b ← get
  let hot := sensors.foldl max 0
  if b.pwr.on then
    setFld Reg.aonPwrMon 31 20 (min hot 4095)
    let limit := 4 * min (b.fld Reg.aonPwrCfg 15 8) 105
    let n := b.fld Reg.aonPwrMon 19 16
    if limit < hot then
      setFld Reg.aonPwrMon 14 14 1
      setLevel (n + 1)
      modPwr (fun p => { p with hostSlow := min (p.hostSlow + 1) 8 })
    else if hot + 12 ≤ limit then
      setFld Reg.aonPwrMon 14 14 0
      if !bit (b.reg Reg.aonPwrMon) 15 && !bit (b.reg Reg.aonPwrMon) 13 then setLevel (n - 1)
      modPwr (fun p => { p with hostSlow := p.hostSlow - 1 })

def execThermalThrottle (sensors : List Nat) (s : State) : Host.Outcome State Fault Refusal := s.act (thermalThrottle sensors)

/-- THERMAL_TRIP (R675): `quarters` of a degree on a sensor; below 115 °C nothing trips. -/
def thermalTrip (quarters : Nat) : Act Unit := do
  let b ← get
  if b.pwr.on && decide (460 ≤ quarters) then
    setFld Reg.aonPwrMon 31 20 (min quarters 4095)
    let _ ← retainEvent { code := 0x12, sev := 3 }
    modPwr (fun p => { p with thermTrip := true, on := false, off := true, cause := p.cause ||| causeBit 52 })

def execThermalTrip (_sensor : Nat) (quarters : Nat) (s : State) : Host.Outcome State Fault Refusal := s.act (thermalTrip quarters)

/-! ### Clocks (R677, R678) -/

/-- The cores of a cluster. -/
def clusterCores (d c : Nat) : List Nat := (List.range 4).map (fun i => coreKey d (4 * c + i))

/-- R677: does a core hold a bound context that can issue? -/
def Blk.busyCore (b : Blk) (k : Nat) : Bool := [2 * k, 2 * k + 1].any (fun j => (b.slot j).bound && (b.slot j).st == .run && (b.slot j).wait == .none)

def execClusterClockStop (die : Fin 2) (cl : Fin 5) (s : State) : Host.Outcome State Fault Refusal :=
  s.act (do
    let ks := clusterCores die.val cl.val
    if !ks.any (← get).busyCore then ks.forM (fun k => modCore k (fun c => { c with clockStopped := true })))

def execClusterClockStart (die : Fin 2) (cl : Fin 5) (s : State) : Host.Outcome State Fault Refusal :=
  s.act ((clusterCores die.val cl.val).forM (fun k => modCore k (fun c => { c with clockStopped := false })))

/-- CLOCK_DROOP (R678, R742, R744): up to 64 cycles, charged to stall reason 0xC of the slot that holds issue. -/
def clockDroop (d c n : Nat) : Act Unit :=
  (clusterCores d c).forM (fun k => do
    let b ← get
    let x := b.core k
    let j := 2 * k + b2n x.runBf
    if !x.clockStopped then
      modCore k (fun c => { c with stretched := c.stretched + min n 64 })
      if (b.slot j).bound && b.tagPass (b.slot j).layer (b.slot j).oper then countFld (Reg.cntCyc k (24 * (j % 2) + 14)) 63 0 (min n 64))

def execClockDroop (die : Fin 2) (cl : Fin 5) (cycles : Nat) (s : State) : Host.Outcome State Fault Refusal :=
  s.act (clockDroop die.val cl.val cycles)

/-! ### Package time (R681 to R686) -/

/-- AON_TIME_STEP_WRITE (R681). -/
def timeStep (v : Word) : Act Unit := modify (fun b => { b with aon := { b.aon with ns := (b.aon.ns + v.toNat) % 2 ^ 64 } })
def execAonTimeStepWrite (src : Src) (v : Word) (s : State) : Host.Outcome State Fault Refusal := s.regw src Reg.aonTimeStep v (timeStep v)

/-- TIME_LOCK, QUAL_TIMEOUT (R685). -/
def timeQualified : Act Unit := setFld Reg.aonTimeCtrl 63 63 0
def execTimeLock (src : Src) (s : State) : Host.Outcome State Fault Refusal :=
  s.regw src Reg.aonTimeCtrl (setBit (s.blk.reg Reg.aonTimeCtrl) 62 true) timeQualified
def execQualTimeout (s : State) : Host.Outcome State Fault Refusal := s.act timeQualified

/-- PPS_EDGE (R686). -/
def ppsEdge (b : Blk) : Blk :=
  if bit (b.reg Reg.aonTimeCtrl) 61 then (b.setReg Reg.aonPps (word b.now)).setFld Reg.aonTimeCtrl 60 60 1 else b
def execPpsEdge (s : State) : Host.Outcome State Fault Refusal := s.upd ppsEdge

/-- R683: COARSE set equal to package time. -/
def AonSt.aligned (a : AonSt) : AonSt := { a with coarse := a.ns % 2 ^ 64 * 2 ^ 32 + a.frac / 2 ^ 8 }

/-- CRYSTAL_TICK (R683): COARSE follows package time while its unit runs, else advances by 30,517.578125 ns. -/
def crystalTick (b : Blk) : Blk :=
  if !b.pwr.aux then b
  else if b.pwr.on then { b with aon := b.aon.aligned }
  else { b with aon := { b.aon with coarse := b.aon.coarse + 131072000000000 } }
def execCrystalTick (s : State) : Host.Outcome State Fault Refusal := s.upd crystalTick

/-! ### Idle (R687, R688) -/

/-- IDLE_ENTER: what this model can see of R687's conditions: no cluster clock runs, no copy, memory-controller or PCIe transaction
is in flight, no MAC holds a frame. -/
def Blk.mayIdle (b : Blk) : Bool :=
  b.started && bit (b.reg Reg.aonPwrCfg) 16 && decide (b.fld Reg.aonPwrSts 63 61 = 0) &&
  (List.range 40).all (fun k => (b.core k).clockStopped) && b.engines.all (fun e => e.2.isEmpty) && b.mem.merge.isEmpty &&
  b.resid.isEmpty && b.link.ports.all (fun p => p.2.txq.isEmpty && p.2.rx.isEmpty && p.2.ctl.isEmpty)

def execIdleEnter (s : State) : Host.Outcome State Fault Refusal :=
  s.upd (fun b => if b.mayIdle then b.setFld Reg.aonPwrSts 63 61 1 else b)

/-- IDLE_EXIT: any of R688's events. -/
def execIdleExit (_why : IdleWake) (s : State) : Host.Outcome State Fault Refusal :=
  s.upd (fun b => if b.fld Reg.aonPwrSts 63 61 = 1 then b.setFld Reg.aonPwrSts 63 61 0 else b)

/-! ### Doze (R689 to R694) -/

/-- R689: what an accepted DOZE needs. -/
def Blk.mayDoze (b : Blk) : Bool :=
  bit (b.reg Reg.aonSaveBase) 0 && decide (b.fld Reg.aonPwrSts 63 61 < 2) && b.slots.all (fun ks => !ks.2.bound) &&
  b.xpt.qps.all (fun q => q.2.all (fun x => x.err.isSome && x.cmds.isEmpty)) &&
  (List.range 16).all (fun j => !bit (b.reg (Reg.colJob j)) 63) && !bit (b.reg Reg.colMirror) 63 && b.resid.isEmpty && b.pins.isEmpty &&
  b.engines.all (fun e => e.2.isEmpty) && b.col.colls.isEmpty && b.col.perms.isEmpty

/-- AON_PWR_CMD DOZE: step 1 of R690; the package performs the others on its idle ticks (log entry 2). -/
def dozeCmd : Act Unit := do
  if !(← get).mayDoze then setFld Reg.aonPwrSts 55 48 0x0A
  else
    setFld Reg.aonPwrSts 63 61 2
    setFld Reg.aonPwrSts 60 60 1

/-- DOZE, by a write or a management request of class C1, which does not wake what it puts to sleep. -/
def execDoze (src : Requester) (s : State) : Host.Outcome State Fault Refusal := s.act (powerCmd src 1 dozeCmd)

/-- R690, step 4: the Saved items of a die as whole frames; the spec gives them no layout, so their bytes are free. -/
def saveDie (d : Nat) : Act Unit := do
  let base := (← get).fld Reg.aonSaveBase 47 24 * 2 ^ 24 + d * 0x800000
  (List.range 1024).forM (fun i => do
    let (a, r) := (← get).resolve (base + i * 8192)
    if r.isTier then
      let bs ← freeBytes 8192
      writeFrameAt a r { data := bs })

/-- R690, steps 2 to 7. -/
def dozeStep : Act Unit := do
  if (← get).fld Reg.aonPwrSts 63 61 = 2 then
    closeMerges (fun _ => true)
    [0, 1].forM (fun d => do
      ((← get).cacheOf d).forM (fun n => do
        match (← get).qp n with
        | some q => saveQp n (if q.err.isSome then 3 else 1) q
        | none => pure ()))
    saveDie 0
    saveDie 1
    closeMerges (fun _ => true)
    (List.range 48).forM (fun n => do
      modPort n (fun p => { p with txq := [], ctl := [], passed := false, hello := none })
      setFld (Reg.fabLaneSts n) 59 58 0
      modify (·.laneTo n 0))
    modPwr (fun p => { p with diesOff := true })
    setFld Reg.aonPwrSts 63 61 3
    setFld Reg.aonPwrSts 55 48 0
    setFld Reg.aonPwrSts 60 60 0

/-- The register blocks whose counts a Doze exit returns to their defaults (R701), with the bits that count. -/
def countBits (off : Nat) : Word :=
  let at' (base stride n : Nat) : Bool := decide (base ≤ off ∧ off < base + stride * n) && decide ((off - base) % stride = 0)
  let core (r : Nat) : Bool := [0, 1].any (fun d => at' (0x1100000 + 0x1000000 * d + r) 0x10000 20)
  if core 0x110 || core 0x208 || core 0x300 then -1
  else if at' (Reg.eccCnt 0) 0x10 21 then word (2 ^ 48 - 1)
  else if off = Reg.eccScrubSts then word (0xFFFFFFFF <<< 32)
  else if off = Reg.hceLinkSts then word (2 ^ 48 - 1)
  else if decide (0x4100200 ≤ off ∧ off < 0x4140000) && decide (0x200 ≤ off % 0x1000) then -1
  else if decide (Reg.xptCount 0 0 ≤ off ∧ off < Reg.xptCount 2 0) || decide (Reg.colCount 0 0 ≤ off ∧ off < Reg.colCount 2 0) then -1
  else if off = Reg.colMirrorSts then word (2 ^ 62 - 1)
  else if at' (Reg.prtDbrej 0) 8 1024 || at' (Reg.pkgStale 0) 8 3 || off = Reg.dbgTrcSts || off = Reg.dbgWfgSts then -1
  else if off = Reg.pkgFltSts then word (2 ^ 64 - 1 - 0xFFFF <<< 16)
  else if decide (Reg.cntCyc 0 0 ≤ off) then -1
  else 0

/-- R693: the Saved items of a die whose restore failed take their Reset values; the fabric block's fields go with either die
(log entry 50). -/
def savedLost (bad : BitVec 2) (off : Nat) : Bool :=
  (bad.getLsbD 0 && decide (0x1000000 ≤ off ∧ off < 0x2000000)) || (bad.getLsbD 1 && decide (0x2000000 ≤ off ∧ off < 0x3000000)) ||
  (decide (bad ≠ 0) && decide (0x4000000 ≤ off ∧ off < 0x5000000 ∧ off ≠ Reg.macWakeSts))

/-- The exit from Doze but for the held accesses (R692, R693, R701). -/
def dozeEnd (us : Nat) (bad : BitVec 2) : Act Unit := do
  modify (·.pass us)
  let b ← get
  if b.pwr.diesOff then
    modify (fun b =>
      let b := (b.zeroDie 0).zeroDie 1
      { b with
        regs := b.regs.filterMap (fun kw => match regDesc kw.1 with
          | some d =>
            let v := if savedLost bad kw.1 then d.warm kw.2 else kw.2
            let c := countBits kw.1
            let v := (v &&& ~~~c) ||| (d.reset &&& c)
            if v = d.reset then none else some (kw.1, v)
          | none => none),
        slots := [],
        dbg := { b.dbg with trace := [], gap := [], sampled := [], wfg := none } })
    [0, 1].forM (fun d => if bad.getLsbD d then modify (·.setCache d []) else pure ())
    if bad ≠ 0 then setFld Reg.aonLost 53 53 1
    modPwr (fun p => { p with diesOff := false })
    setFld Reg.aonPwrSts 63 61 0
    let b ← get
    ((List.range 48).filter (fun n => b.leads n && decide (b.role n ≠ 0) && b.laneOn n && b.groupOk n)).forM quickLane
  setFld Reg.aonPwrSts 63 61 0
  setFld Reg.aonPwrSts 60 60 0
  setFld Reg.aonPwrSts 31 0 (min us (2 ^ 32 - 1))

/-- AON_PWR_CMD WAKE (R692). -/
def wakeCmd : Act Unit := do
  let st := (← get).fld Reg.aonPwrSts 63 61
  if !bit ((← get).reg Reg.aonPwrSts) 60 then
    setFld Reg.aonPwrSts 55 48 0
    if st = 3 then
      setFld Reg.aonPwrSts 60 60 1
      dozeWake 1

def execWake (src : Src) (s : State) : Host.Outcome State Fault Refusal := s.regw src Reg.aonPwrCmd (word (3 <<< 60)) wakeCmd

/-! ### Sleep (R510, R695 to R697) -/

/-- AON_PWR_CMD SLEEP: drain, merge entries, the SPI NOR, COARSE, and power off. -/
def sleepCmd : Act Unit := do
  let b ← get
  if b.started && !b.pwr.asleep then
    closeMerges (fun _ => true)
    if (← get).norPend then writeNor
    modify (fun b => { b with aon := b.aon.aligned, host := { b.host with held := [] } })
    modSec (fun x => { x with tls := false })
    setFld Reg.aonPwrSts 63 61 0
    setFld Reg.aonPwrSts 60 60 0
    modPwr (fun p => { p with asleep := true, on := false, diesOff := false })

def execSleep (src : Requester) (s : State) : Host.Outcome State Fault Refusal := s.act (powerCmd src 1 sleepCmd)

/-- The WAKE_SRC code of a source. -/
def wakeCode : WakeSrc → Nat
  | .command => 1
  | .pattern => 2
  | .wakeN => 3
  | .alarm => 4
  | .mgmt => 5
  | .mainGood => 6
  | .resetN => 7

/-- SLEEP_EXIT (R697): a source of R697 starts the package with the SLEEP cause bit set. -/
def sleepExit (why : WakeSrc) : Act Unit := do
  let b ← get
  if b.pwr.asleep && b.pwr.aux && [2, 3, 4, 5].contains (wakeCode why) then
    setFld Reg.aonPwrSts 47 44 (wakeCode why)
    if why = .alarm then setFld Reg.aonAlarm 63 63 0
    warmStart true (b.pwr.cause ||| causeBit 50)

def execSleepExit (why : WakeSrc) (s : State) : Host.Outcome State Fault Refusal :=
  s.act (if why = .resetN then resetAssert else sleepExit why)

/-- WAKE_N_ASSERT (R697, R781): ignored while RESET_N is low. -/
def execWakeNAssert (s : State) : Host.Outcome State Fault Refusal :=
  s.act (do
    let b ← get
    if !b.pwr.rstLow then
      if b.fld Reg.aonPwrSts 63 61 = 1 then setFld Reg.aonPwrSts 63 61 0
      sleepExit .wakeN)

/-- ALARM_EXPIRY (R692, R697; AON_ALARM). -/
def execAlarmExpiry (s : State) : Host.Outcome State Fault Refusal :=
  s.act (do
    let b ← get
    if bit (b.reg Reg.aonAlarm) 63 then
      if b.pwr.asleep then sleepExit .alarm else dozeWake 4)

/-! ### Board-facing signals (R663, R664, R669, R675, R717, R769, R770, R773) -/

/-- READY is driven high. -/
def Blk.ready (b : Blk) : Bool := b.started && b.awake && b.pwr.on
/-- FAULT_N, THERMTRIP_N, POWER_FAIL_N and ALERT_N, each as "asserted". -/
def Blk.faultN (b : Blk) : Bool := b.pwr.aux && b.pwr.faultN
def Blk.thermtripN (b : Blk) : Bool := b.pwr.aux && b.pwr.thermTrip
def Blk.powerFailN (b : Blk) : Bool := b.pwr.aux && b.pwr.powerFail
def Blk.alertN (b : Blk) : Bool := b.pwr.aux && !b.dbg.bmc.isEmpty

/-- FRAME_RECEIVE (R484, R512, R514): in Doze and Sleep a match on the service port wakes the package; in Sleep only the wake
detector of that port is powered. -/
def execFrameReceive (n : Fin 49) (f : RxFrame) (s : State) : Host.Outcome State Fault Refusal :=
  s.act (do
    let b ← get
    let hit := decide (n.val = 48) && b.wakes f
    if b.pwr.asleep then
      if hit then
        wakeMatch f.bytes true
        sleepExit .pattern
    else
      frameReceive n.val f b.dozing
      if hit && b.dozing then dozeWake 2)

end Sys2Proof.Machine
end

