-- ==== Sys2Proof/Machine/Seq.lean ====
section
/-! DEFINITION. The SEQ and SYNC classes (03_plynax_programs.md R145 to R161). -/
namespace Sys2Proof.Machine

/-- SEQ.NOP (R145). -/
def execSeqNop (m : Member) (w : Word) (s : State) : Host.Outcome State Fault Refusal :=
  s.upd (issue m w 0 0x00 (wordOk w false (0, 0) && rsvdOk w []) (fun _ => pure ()))

/-- SEQ.END (R151): the member stops fetching. -/
def execSeqEnd (m : Member) (w : Word) (s : State) : Host.Outcome State Fault Refusal :=
  s.upd (issue m w 0 0x01 (wordOk w false (0, 0) && rsvdOk w []) (fun c => modSlot c.key (fun s => { s with st := .ended })))

/-- R147: a body of `body` words from `start` lies within every active loop of the slot. -/
def Slot.nestOk (s : Slot) (start : BitVec 32) (body : Nat) : Bool :=
  s.lc.toList.all (fun l => !l.active || decide (body ≤ (l.stop - start).toNat))

/-- SEQ.LOOP (R147): a counted loop over the BODY words that follow. -/
def seqLoop (w : Word) (c : Cx) : Act Unit := do
  let b ← get
  let s := b.slot c.key
  let lc := bits w 47 45
  let body := bits w 15 0
  let count := if bit w 44 then (b.sreg c.key (bits w 24 20)).toNat else bits w 43 20
  let start := c.pc + 1
  need (decide (body ≠ 0) && decide (count < 2 ^ 32) && !(s.lc.toList[lc]?.getD {}).active && s.nestOk start body) 0x0A
  if count = 0 then modSlot c.key (fun s => { s with fetch := start + BitVec.ofNat 32 body })
  else
    let depth := (s.lc.toList.filter (·.active)).length
    let l : Loop := ⟨true, count, 0, start, start + BitVec.ofNat 32 body, c.pc, depth⟩
    modSlot c.key (fun s => { s with lc := s.lc.setIfInBounds lc l })

def execSeqLoop (m : Member) (w : Word) (s : State) : Host.Outcome State Fault Refusal :=
  s.upd (issue m w 0 0x02
    (wordOk w false (0, 0) && rsvdOk w [(47, 45), (44, 44), (43, 20), (15, 0)] && (!bit w 44 || decide (bits w 43 25 = 0))) (seqLoop w))

/-- SEQ.TAG (R149, R752, R756). -/
def seqTag (w : Word) (c : Cx) : Act Unit := do
  tagChange c.key (BitVec.ofNat 16 (bits w 31 16)) (BitVec.ofNat 16 (bits w 15 0))
  modify (·.trace c.key 4 c.pc (bits w 31 0))

def execSeqTag (m : Member) (w : Word) (s : State) : Host.Outcome State Fault Refusal :=
  s.upd (issue m w 0 0x03 (wordOk w false (0, 0) && rsvdOk w [(31, 16), (15, 0)]) (seqTag w))

/-- SEQ.FENCE (R161): the member waits until its earlier instructions of the scope have completed. -/
def seqFence (w : Word) (c : Cx) : Act Unit := do
  let scope := bits w 5 0
  need (scope ≠ 0) 0x0A
  if !(← get).fenceOk c.key scope then setWait c (.scope scope)

def execSeqFence (m : Member) (w : Word) (s : State) : Host.Outcome State Fault Refusal :=
  s.upd (issue m w 0 0x04 (wordOk w false (0, 0) && rsvdOk w [(5, 0)]) (seqFence w))

/-- SEQ.SEED (R150). -/
def execSeqSeed (m : Member) (w x : Word) (s : State) : Host.Outcome State Fault Refusal :=
  s.upd (issue m w 0 0x05 (wordOk w true (0, 0) && rsvdOk w []) (fun c => modSlot c.key (fun s => { s with seed := x })))

/-- The low 32 bits of a word, sign-extended to 64 (R146). -/
def sext32 (w : Word) : Word := (w.truncate 32).signExtend 64

/-- R146: the value that function FN of SEQ.SCALAR delivers; `none`: cause 0x0A. -/
def scalarFn (b : Blk) (k : Nat) (w x : Word) : Option Word :=
  let a := b.sreg k (bits w 38 34)
  let imm := sext32 w
  let sb := b.sreg k (bits w 4 0)
  let rOk := decide (bits w 31 5 = 0)
  match bits w 47 44 with
  | 0 => some (if bit w 53 then x else imm)
  | 1 => if rOk then some (a + sb) else none
  | 2 => some (a + imm)
  | 3 => if rOk then some (a - sb) else none
  | 4 => some (a * imm)
  | 5 => if bits w 31 6 = 0 then some (a <<< bits w 5 0) else none
  | 6 => if bits w 31 6 = 0 then some (a >>> bits w 5 0) else none
  | 7 => if rOk then some (a &&& sb) else none
  | 8 => if rOk then some (a ||| sb) else none
  | 9 =>
    let l := ((b.slot k).lc.toList[bits w 2 0]?).getD {}
    if bits w 38 34 = 0 ∧ bits w 31 3 = 0 ∧ l.active then some (word l.idx) else none
  | _ => none

/-- R146: SET takes an extension word, with IMM zero; SET without SA. -/
def scalarOk (w : Word) : Bool :=
  decide (bits w 52 48 = 0) && rsvdOk w [(47, 44), (43, 39), (38, 34), (31, 0)] &&
  (!bit w 53 || (decide (bits w 47 44 = 0) && decide (bits w 31 0 = 0)))

/-- SEQ.SCALAR (R146). -/
def execSeqScalar (m : Member) (w x : Word) (s : State) : Host.Outcome State Fault Refusal :=
  s.upd (issue m w 0 0x06 (scalarOk w) (fun c => do
    match scalarFn (← get) c.key w x with
    | some v => setS c (bits w 43 39) v
    | none => throw 0x0A))

/-- The mask whose low `n` bits are set (R148). -/
def lowMask (n : Nat) : BitVec 256 := BitVec.ofNat 256 (2 ^ (min n 256) - 1)

/-- SEQ.MASK (R148). -/
def execSeqMask (m : Member) (w : Word) (s : State) : Host.Outcome State Fault Refusal :=
  s.upd (issue m w 0 0x07
    (wordOk w false (0, 0) && rsvdOk w [(47, 45), (44, 44), (40, 32)] && decide (bits w 47 45 ≠ 0) &&
      (!bit w 44 || decide (bits w 40 37 = 0)))
    (fun c => do
      let b ← get
      let n := if bit w 44 then (b.sreg c.key (bits w 36 32)).toNat else bits w 40 32
      modSlot c.key (fun s => s.setM (bits w 47 45) (lowMask n))))

/-! ### SYNC class -/

/-- R155: the layout common to the six opcodes. -/
def syncWordOk (w : Word) : Bool :=
  decide (bits w 52 48 = 0) && (!bit w 47 || decide (bits w 45 37 = 0)) &&
  (if bit w 46 then decide (bits w 31 5 = 0) && !bit w 53 else !bit w 53 || decide (bits w 31 0 = 0))

/-- R155: the object and VALUE that a SYNC instruction names. -/
def Blk.syncOperands (b : Blk) (k : Nat) (w x : Word) : Nat × Word :=
  (if bit w 47 then (b.sreg k (bits w 36 32)).toNat % 2 ^ 14 else bits w 45 32,
   if bit w 46 then b.sreg k (bits w 4 0) else if bit w 53 then x else word (bits w 31 0))

/-- R153: does a signal cover an operation of the signalling member, with or without remote coverage? -/
def OutKind.covered (remote : Bool) : OutKind → Bool
  | .copy _ => true
  | .push => true
  | .run => true
  | .remote => remote
  | .coll => remote
  | .place => false

/-- Give a signal that waits for the member's earlier writes (R153). -/
def signal (c : Cx) (obj : Nat) (v : Word) (set' remote : Bool) : Act Unit :=
  modify (fun b => { b with sigs := b.sigs ++ [PendSig.mk obj v set' c.part (some c.key)
    ((b.outst.filter (fun o => decide (o.slot = c.key) && o.kind.covered remote)).map (·.id))] })

/-- The wait of a SYNC instruction (R154). -/
def waitSync (c : Cx) (obj : Nat) (v : Word) : Act Unit := do
  if !syncOk ((← get).syncVal obj) v then setWait c (.sync obj v)

/-- R152, R176: a SYNC instruction on an object of the member's partition. -/
def syncOp (w x : Word) (f : Cx → Nat → Word → Act Unit) (c : Cx) : Act Unit := do
  let b ← get
  let (obj, v) := b.syncOperands c.key w x
  need (b.ownsSync c.part obj) 0x02
  f c obj v

/-- SYNC.WAIT. -/
def execSyncWait (m : Member) (w x : Word) (s : State) : Host.Outcome State Fault Refusal :=
  s.upd (issue m w 1 0x00 (syncWordOk w) (syncOp w x waitSync))

/-- SYNC.SIGNAL. -/
def execSyncSignal (m : Member) (w x : Word) (s : State) : Host.Outcome State Fault Refusal :=
  s.upd (issue m w 1 0x01 (syncWordOk w) (syncOp w x (fun c obj v => signal c obj v false false)))

/-- SYNC.ARRIVE. -/
def execSyncArrive (m : Member) (w x : Word) (s : State) : Host.Outcome State Fault Refusal :=
  s.upd (issue m w 1 0x02 (syncWordOk w) (syncOp w x (fun c obj v => do
    signal c obj 1 false false
    waitSync c obj v)))

/-- SYNC.SET. -/
def execSyncSet (m : Member) (w x : Word) (s : State) : Host.Outcome State Fault Refusal :=
  s.upd (issue m w 1 0x03 (syncWordOk w) (syncOp w x (fun c obj v => signal c obj v true false)))

/-- SYNC.SIGNAL.R. -/
def execSyncSignalR (m : Member) (w x : Word) (s : State) : Host.Outcome State Fault Refusal :=
  s.upd (issue m w 1 0x05 (syncWordOk w) (syncOp w x (fun c obj v => signal c obj v false true)))

/-- SYNC.ARRIVE.R. -/
def execSyncArriveR (m : Member) (w x : Word) (s : State) : Host.Outcome State Fault Refusal :=
  s.upd (issue m w 1 0x06 (syncWordOk w) (syncOp w x (fun c obj v => do
    signal c obj 1 false true
    waitSync c obj v)))

/-- Is a pending signal due: what it covers is complete, and no earlier signal of its member to the same object waits
(log entry 20)? -/
def Blk.sigDue (b : Blk) (n : Nat) (g : PendSig) : Bool :=
  g.deps.all (fun i => b.outst.all (fun o => decide (o.id ≠ i))) &&
  (b.sigs.take n).all (fun h => decide (h.obj ≠ g.obj) || decide (h.slot ≠ g.slot))

/-- SYNC_SIGNAL_APPLY (R153): the signal at place `n` of the pending ones is added to its counter, or SYNC.SET's value
replaces it; an object that no longer belongs to the partition is left alone (R152). -/
def syncSignalApply (n : Nat) (b : Blk) : Blk :=
  match b.sigs[n]? with
  | none => b
  | some g =>
    if !b.sigDue n g then b
    else
      let b1 := { b with sigs := b.sigs.eraseIdx n }
      let b1 := match g.slot with
        | some k => { b1 with dbg := { b1.dbg with signaller := sset 0 b1.dbg.signaller g.obj ((b1.slot k).ctx.toNat + 1) } }
        | none => b1
      if !b1.ownsSync g.part g.obj then b1
      else if g.set then b1.setSync g.obj g.val
      else b1.addSync g.obj g.val

def execSyncSignalApply (n : Nat) (s : State) : Host.Outcome State Fault Refusal := s.upd (syncSignalApply n)

/-- CORE_SYNC_OWN_WRITE (R157): the object is assigned, its counter is 0, and every member that waits for it faults. -/
def coreSyncOwnWrite (obj : Nat) (v : Word) (b : Blk) : Blk :=
  let b1 := (b.setReg (Reg.coreSyncOwn (obj / 8192) (obj % 8192)) (v &&& 0x80000000000003FF)).setReg
    (Reg.coreSyncVal (obj / 8192) (obj % 8192)) 0
  b1.slots.foldl (fun b ks => match ks.2.wait with
    | .sync o _ => if o = obj then b.raiseLast ks.1 0x02 else b
    | _ => b) b1

def execCoreSyncOwnWrite (src : Src) (obj : BitVec 14) (v : Word) (s : State) : Host.Outcome State Fault Refusal :=
  s.regw src (Reg.coreSyncOwn (obj.toNat / 8192) (obj.toNat % 8192)) v (modify (coreSyncOwnWrite obj.toNat v))

end Sys2Proof.Machine
end

