-- ==== Sys2Proof/Machine/RegMap.lean ====
section
/-! DEFINITION. Writes and reads of the register map: which registers have a behaviour of their own, and what a read shows
that no register stores (00_scope.md R16; 01_one_package.md R41, R42, R62; 13_partitions_and_trust.md R613, R638). -/
namespace Sys2Proof.Machine

/-- The index of an offset in an array of `n` registers from `base`, `stride` bytes apart. -/
def regIndex (base stride n off : Nat) : Option Nat :=
  if base ≤ off ∧ off < base + stride * n ∧ (off - base) % stride = 0 then some ((off - base) / stride) else none

/-- A write to a register without a behaviour of its own (R16, R42). -/
def plainWrite (off : Nat) (v : Word) : Act Unit := do
  match regDesc off with
  | some d => setReg off (d.write ((← get).reg off) v)
  | none => pure ()

/-- Who stands behind a register write on the management side. -/
def Src.channel : Src → Channel
  | .host => .host
  | .control => .firmware

/-- Is a queue pair open (R62)? -/
def Blk.anyQp (b : Blk) : Bool := b.xpt.qps.any (fun q => q.2.isSome)

/-- R62: a write that changes PACKAGE while a queue pair is open takes effect at the next warm reset; `who` is CHANNEL and
PRINCIPAL of the change log. -/
def pkgNumberSet (who : Nat × Nat) (v : Word) : Act Unit := do
  let b ← get
  let old := b.reg Reg.pkgNumber
  let new := v &&& 0x80000FFF
  if b.anyQp && decide (bits old 11 0 ≠ bits new 11 0) then
    if who.1 = 1 && !b.policy .host 1 then changeLog who 0x09 Reg.pkgNumber 0 0
    else
      modPwr (fun p => { p with keep := { p.keep with number := some new } })
      changeLog who 0x01 Reg.pkgNumber old new
  else
    logged who Reg.pkgNumber (do
      setReg Reg.pkgNumber new
      modPwr (fun p => { p with keep := { p.keep with number := none } }))

/-- PKG_NUMBER_WRITE (R62). -/
def execPkgNumberWrite (src : Src) (v : Word) (s : State) : Host.Outcome State Fault Refusal := s.act (pkgNumberSet (srcWho src) v)

/-- CORE_CTX_CMD: 1 BIND_FG, 2 BIND_BF, 3 UNBIND, 4 ABORT, others ignored. -/
def ctxCmdWrite (d : Nat) (v : Word) : Act Unit := do
  let n := bits v 15 0
  match bits v 63 60 with
  | 1 => ctxCommand d n (bindStream false d n)
  | 2 => ctxCommand d n (bindStream true d n)
  | 3 => ctxCommand d n (stopCommand true d n)
  | 4 => ctxCommand d n (stopCommand false d n)
  | _ => pure ()

/-- MEM_PLC_CMD; what a peer reports for SQOPEN is no operand of the write, so it is a free value (log entry 14). -/
def plcCmdWrite (v : Word) : Act Unit := do
  let obj := BitVec.ofNat 32 (bits v 31 0)
  let p := bits v 57 48
  let ddr := bit v 47
  let e := bits v 46 40
  match bits v 63 60 with
  | 1 => plcCommand obj (atOnce (create obj))
  | 2 => plcCommand obj (atOnce (destroy obj))
  | 3 => plcCommand obj (do promote obj p ((← get).fld Reg.memPlcArg 31 0) .reg)
  | 4 => plcCommand obj (atOnce (evict obj p))
  | 5 => plcCommand obj (atOnce (reclaim obj))
  | 6 => plcCommand 0 (atOnce (do chargeQuota p ddr ((← get).reg Reg.memPlcArg).toNat))
  | 7 => plcCommand 0 (atOnce (do creditQuota p ddr ((← get).reg Reg.memPlcArg).toNat))
  | 8 =>
    let i ← fresh
    plcCommand 0 (atOnce (sqOpen e (Config.freeWord i).toNat))
  | 9 => plcCommand 0 (atOnce (sqClose e))
  | _ => pure ()

/-- HCE_RESTART: 1 DRAIN, 2 RESTART, 3 ENABLE. -/
def restartWrite (v : Word) : Act Unit := do
  match bits v 63 62 with
  | 1 => askDrain false
  | 2 => askDrain true
  | 3 => modify (fun b => if b.hold then b.setFld Reg.hceRestart 33 32 0 else b)
  | _ => pure ()

/-- FAB_MAC_BASE: a write with bit 40 set is ignored. -/
def macBaseWrite (v : Word) : Act Unit := if bit v 40 then pure () else plainWrite Reg.fabMacBase v

/-- XPT_QP_CMD: 1 OPEN, 2 CLOSE, 3 ERROR. -/
def qpCmdWrite (v : Word) : Act Unit := do
  let n := bits v 15 0
  match bits v 63 60 with
  | 1 => qpCommand n (qpOpen n)
  | 2 => qpCommand n (qpClose n)
  | 3 => qpCommand n (qpErrorCmd n)
  | _ => pure ()

/-- XPT_WIN_CMD: 1 LOAD, 2 REVOKE. -/
def winCmdWrite (v : Word) : Act Unit := do
  match bits v 63 60 with
  | 1 => winLoad (bits v 57 48) (bits v 7 0)
  | 2 => winRevoke (bits v 57 48) (bits v 7 0)
  | _ => pure ()

/-- COL_MIRROR: the plain fields first, PARTNER and QP only while EN is 0, then EN, then RESEND (R596, R598, R610). -/
def mirrorWrite (v : Word) : Act Unit := do
  let old := (← get).reg Reg.colMirror
  let v' := if bit old 63 then setBits (setBits v 55 44 (bits old 55 44)) 15 0 (bits old 15 0) else v
  plainWrite Reg.colMirror (setBit v' 63 (bit old 63))
  colMirrorEn (bit v 63)
  if bit v 62 then mirrorResend

/-- COL_JOB[j]: the base, and EN going to 0 (R611). -/
def jobRegWrite (j : Nat) (v : Word) : Act Unit := do
  let old := (← get).reg (Reg.colJob j)
  if bit old 63 && !bit v 63 then
    plainWrite (Reg.colJob j) (setBit v 63 true)
    colJobDisable j
  else plainWrite (Reg.colJob j) v

/-- PRT_CMD: 1 ENABLE, 2 TEARDOWN, 3 INVAL. -/
def prtCmdWrite (v : Word) : Act Unit := do
  let p := bits v 57 48
  match bits v 63 60 with
  | 1 => prtCommand p (prtEnable p)
  | 2 => prtCommand p (prtTeardown p)
  | 3 => prtCommand p (prtInval p)
  | _ => pure ()

/-- PRT_PART[p]: TT_BASE stays while EN is 1; partition 0, always enabled, takes a base at any time (log entry 51). -/
def partWrite (p : Nat) (v : Word) : Act Unit := do
  if !bit ((← get).reg (Reg.prtPart p)) 63 then plainWrite (Reg.prtPart p) v

/-- PKG_START_CTRL: FULL, and CLEAR (R728). -/
def startCtrlWrite (src : Src) (v : Word) : Act Unit := do
  plainWrite Reg.pkgStartCtrl v
  if bit v 1 then startClear src

/-- PKG_TEST_CMD: 1 TEST, 2 CALIBRATE, 3 ABORT. -/
def testCmdWrite (v : Word) : Act Unit := do
  match bits v 63 60 with
  | 1 => testCmd v
  | 2 => calibrateCmd v
  | 3 => testAbort
  | _ => pure ()

/-- AON_PWR_CMD: 1 DOZE, 2 SLEEP, 3 WAKE, 4 WARM_RESET, 5 FACTORY_RESTORE; the last two need KEY = 0xA5 (R689 to R700). -/
def pwrCmdWrite (src : Src) (v : Word) : Act Unit := do
  let key := decide (bits v 15 8 = 0xA5)
  match bits v 63 60 with
  | 1 => powerCmd (.reg src) 1 dozeCmd
  | 2 => powerCmd (.reg src) 1 sleepCmd
  | 3 => wakeCmd
  | 4 => powerCmd (.reg src) 2 (if key then requestReset (causeBit 49) else pure ())
  | 5 => powerCmd (.reg src) 4 (if key then restoreAsked (Src.channel src) else pure ())
  | _ => pure ()

/-- AON_TIME_CTRL: the plain fields, and LOCK (R685). -/
def timeCtrlWrite (v : Word) : Act Unit := do
  plainWrite Reg.aonTimeCtrl v
  if bit v 62 then timeQualified

/-- DBG_WFG_CTRL: the plain fields, and DUMP (R757). -/
def wfgCtrlWrite (v : Word) : Act Unit := do
  plainWrite Reg.dbgWfgCtrl v
  if bit v 63 then wfgTrigger 3 0

/-- A write to a register of the compute dies' blocks. -/
def dieWrite (off : Nat) (v : Word) : Act Unit := do
  let d := off / 0x1000000 - 1
  match regIndex (Reg.coreSyncOwn d 0) 8 8192 off, regIndex (Reg.coreBfCtrl d 0) 0x10000 20 off with
  | some o, _ => modify (coreSyncOwnWrite (d * 8192 + o) v)
  | _, some p => modify (coreBfCtrlWrite d p v)
  | _, _ => if off = Reg.coreCtxCmd d then ctxCmdWrite d v else plainWrite off v

/-- A write to a register of the fabric block. -/
def fabricWrite (off : Nat) (v : Word) : Act Unit := do
  match regIndex (Reg.fabLaneCfg 0) 8 49 off, regIndex (Reg.xptPkey 0) 8 1024 off,
    regIndex (Reg.colJob 0) 8 16 off with
  | some n, _, _ => fabLaneCfgWrite n v
  | _, some p, _ => xptPkeyWrite p v
  | _, _, some j => jobRegWrite j v
  | _, _, _ =>
    if off = Reg.fabMacBase then macBaseWrite v
    else if off = Reg.fabTxrIdx then fabTxrIdxWrite v
    else if off = Reg.fabTxrCfg then modify (fabRingCfgWrite true v)
    else if off = Reg.fabRxrCfg then modify (fabRingCfgWrite false v)
    else if off = Reg.xptQpCmd then qpCmdWrite v
    else if off = Reg.xptWinCmd then winCmdWrite v
    else if off = Reg.colMirror then mirrorWrite v
    else plainWrite off v

/-- A write to a register of the other blocks. -/
def hostDieWrite (src : Src) (off : Nat) (v : Word) : Act Unit := do
  match regIndex (Reg.hceNotifyCtl 0) 16 256 off, regIndex (Reg.prtPart 0) 8 1024 off, regIndex (Reg.prtDoorbell 0) 0x1000 1024 off,
    regIndex (Reg.prtSignal 0) 0x1000 1024 off with
  | some i, _, _, _ => modify (hceNotifyCtlWrite i v)
  | _, some p, _, _ => partWrite p v
  | _, _, some p, _ => prtDoorbell p v
  | _, _, _, some p => prtSignal p v
  | _, _, _, _ =>
    if off = Reg.memPlcCmd then plcCmdWrite v
    else if off = Reg.eccBucketCtrl then eccBucketCtrlWrite v
    else if off = Reg.hceRestart then restartWrite v
    else if off = Reg.prtCmd then prtCmdWrite v
    else if off = Reg.pkgEvtCfg then modify (pkgEvtCfgWrite v)
    else if off = Reg.pkgStartCtrl then startCtrlWrite src v
    else if off = Reg.pkgTestCmd then testCmdWrite v
    else if off = Reg.aonTimeStep then timeStep v
    else if off = Reg.aonTimeCtrl then timeCtrlWrite v
    else if off = Reg.cntCmd then (if bit v 63 then sampleAll else pure ())
    else if off = Reg.dbgWfgCtrl then wfgCtrlWrite v
    else plainWrite off v

/-- A write of a whole register by someone, with the change log (R628). -/
def loggedWrite (who : Nat × Nat) (src : Src) (off : Nat) (v : Word) : Act Unit :=
  if off = Reg.pkgNumber then pkgNumberSet who v
  else
    logged who off (
      if 0x1000000 ≤ off ∧ off < 0x3000000 then dieWrite off v
      else if 0x4000000 ≤ off ∧ off < 0x5000000 then fabricWrite off v
      else hostDieWrite src off v)

/-- A write of a whole register; SEC_POLICY and AON_PWR_CMD have classes of their own (R624). -/
def regWrite (src : Src) (off : Nat) (v : Word) : Act Unit :=
  if off = Reg.secPolicy then request' (Src.channel src) 3 true (secPolicyWrite (Src.channel src) v)
  else if off = Reg.aonPwrCmd then pwrCmdWrite src v
  else loggedWrite (srcWho src) src off v

/-- R41: registers take naturally aligned 32-bit and 64-bit accesses. -/
def regSizeOk (off size : Nat) : Bool := decide ((size = 4 ∨ size = 8) ∧ off % size = 0 ∧ off < 0x9000000)

/-- The whole-register value that a write of `size` bytes stands for: RW bits of the other half keep their value, and its other
bits are 0. -/
def Blk.widen (b : Blk) (off size : Nat) (v : Word) : Word :=
  if size = 8 then v
  else
    let r := off / 8 * 8
    let sh := 8 * (off % 8)
    let rw := ((regDesc r).map (·.rw)).getD 0
    let half : Word := word (0xFFFFFFFF <<< sh)
    (b.reg r &&& rw &&& ~~~half) ||| ((v <<< sh) &&& half)

/-- A register write of the right size, held while the package dozes (R694). -/
def regStore (src : Src) (off size : Nat) (v : Word) : Act Unit := do
  let b ← get
  if src = .host && b.dozing && heldOff off then holdAccess (.reg off size v)
  else regWrite src (off / 8 * 8) (b.widen off size v)

/-- What the host cores learn of an access: its bytes, an access fault, poison. -/
def hostAnswer (bs : List Byte) (fault poison : Bool) : Act Unit :=
  modify (fun b => { b with host := { b.host with resp := bs, accessFault := fault, busPoison := poison } })

/-- REGISTER_WRITE (R16, R41): an access of the wrong size or alignment is ignored; it is a host core's access fault, or a
firmware fault of a control core. -/
def registerWrite (src : Src) (off size : Nat) (v : Word) : Act Unit := do
  if regSizeOk off size then regStore src off size v
  else if src = .control then modHost (fun h => { h with fwFaults := h.fwFaults + 1 })
  else hostAnswer [] true false

def execRegisterWrite (src : Src) (off size : Nat) (v : Word) (s : State) : Host.Outcome State Fault Refusal :=
  s.act (registerWrite src off size v)

/-! ### Reads -/

/-- The 2-bit code of an accumulator slot's state. -/
def AccSt.code : AccSt → Nat
  | .free => 0
  | .live => 1
  | .persistent => 2
  | .lost => 3

/-- ACC_SLOT of a core. -/
def Blk.accSlotReg (b : Blk) (k : Nat) : Word :=
  word ((b.core k).acc.foldl (fun m kv => m + kv.2.st.code <<< (2 * kv.1)) 0)

/-- The mask of the landing entries in some states. -/
def Blk.landMask (b : Blk) (k : Nat) (f : LandSt → Bool) : Nat :=
  ((List.range 8).filter (fun i => f ((b.slot k).lands.toList.getD i {}).st)).foldl (fun m i => m ||| 2 ^ i) 0

/-- VEC_LAND of a core. -/
def Blk.vecLandReg (b : Blk) (c : Nat) : Word :=
  let armed : LandSt → Bool := fun s => s == .armed
  let done : LandSt → Bool := fun s => s == .complete || s == .closed
  word (b.landMask (2 * c) armed ||| b.landMask (2 * c) done <<< 8 ||| b.landMask (2 * c + 1) armed <<< 16 |||
    b.landMask (2 * c + 1) done <<< 24)

/-- CORE_CTX of a core. -/
def Blk.coreCtxReg (b : Blk) (c : Nat) : Word :=
  let f := b.slot (2 * c)
  let g := b.slot (2 * c + 1)
  word (b2n ((b.core c).runBf) <<< 63 ||| b2n f.bound <<< 62 ||| b2n g.bound <<< 61 ||| g.part.toNat <<< 48 ||| g.ctx.toNat <<< 32 |||
    f.part.toNat <<< 16 ||| f.ctx.toNat)

/-- The die of a pin: that of its shard block. -/
def Blk.pinDie (b : Blk) (p : Pin) : Nat := match (b.resolve p.blk).2 with
  | .store d _ => d
  | .cluster d _ => d
  | _ => 2

/-- CORE_UPD_PIN of a die. -/
def Blk.pinReg (b : Blk) (d : Nat) : Word :=
  word ((b.pins.filter (fun p => decide (b.pinDie p = d))).foldl (fun m p => m ||| 2 ^ p.entry) 0)

/-- A read of a register: what is stored, or what is computed from the state (R42: no register reads as zero). -/
def Blk.regRead (b : Blk) (off : Nat) : Word :=
  let d := off / 0x1000000 - 1
  if 0x1000000 ≤ off ∧ off < 0x3000000 then
    match regIndex (Reg.accSlot d 0) 0x10000 20 off, regIndex (Reg.vecLand d 0) 0x10000 20 off, regIndex (Reg.coreCtx d 0) 0x10000 20 off with
    | some p, _, _ => b.accSlotReg (coreKey d p)
    | _, some p, _ => b.vecLandReg (coreKey d p)
    | _, _, some p => b.coreCtxReg (coreKey d p)
    | _, _, _ => if off = Reg.coreUpdPin d then b.pinReg d else b.reg off
  else if off = Reg.aonTime then word b.now
  else if off = Reg.aonPwrSts then setBit (b.reg off) 59 b.norPend
  else if off = Reg.aonLost then setBit (b.reg off) 63 (decide (bits (b.reg off) 54 48 ≠ 0))
  else if off = Reg.prtPart 0 then b.reg off ||| word (9 <<< 60)
  else if off = Reg.pkgStartSts then b.startSts
  else b.reg off

end Sys2Proof.Machine
end

