-- ==== Sys2Proof/Machine/HostBus.lean ====
section
/-! DEFINITION. What comes to the package from outside its engines: host-core accesses, PCIe devices, PLDM requests, the exit
from Doze, JTAG (01_one_package.md R40, R41; 09_host_die_coupling.md R420, R421, R430 to R433, R447; 13_partitions_and_trust.md
R622, R637; 15_power_time_reset.md R692, R694). -/
namespace Sys2Proof.Machine

/-! ### Host-core accesses to memory -/

/-- Does the host hold the line at `l` modified? -/
def Blk.hostLine (b : Blk) (l : Nat) : Option (List Byte) := (b.mem.hostDirty.find? (fun x => decide (x.1 = l))).map (·.2)

/-- One line of a tier as the host reads it: its own modified copy, or memory's line; the flag says poison (R369, R371). -/
def hostReadLine (l : Nat) (r : Region) : Act (List Byte × Bool) := do
  match (← get).hostLine l with
  | some bs => pure (bs, false)
  | none =>
    devClean l 64
    let (bs, st) ← readLinesAt l 64 r
    pure (bs, decide (st ≠ 0))

/-- The lines that [a, a+n) touches. -/
def linesOf (a n : Nat) : List Nat := (List.range ((a % 64 + n + 63) / 64)).map (fun i => a / 64 * 64 + 64 * i)

/-- A read of [a, a+n): its bytes and whether any line of it is poisoned. -/
def hostRead (a n : Nat) (r : Region) : Act (List Byte × Bool) := do
  if r.isTier then
    let ls ← (linesOf a n).mapM (fun l => hostReadLine l r)
    pure (((ls.flatMap (·.1)).drop (a % 64)).take n, ls.any (·.2))
  else
    (piecesOf a n).foldlM (fun acc p => do
      let (bs, st) ← readLinesAt p.1 p.2 r
      pure (acc.1 ++ bs, acc.2 || decide (st ≠ 0))) ([], false)

/-- A store stays in a host-die cache: its line becomes modified there (R432, R433). -/
def hostKeep (a : Nat) (bs : List Byte) (r : Region) : Act Unit := do
  let l := a / 64 * 64
  let (old, bad) ← hostReadLine l r
  if bad then writeLinesAt a r bs
  else
    unreserve a bs.length
    modify (fun b => { b with mem := { b.mem with hostDirty :=
      (b.mem.hostDirty.filter (fun x => decide (x.1 ≠ l))) ++ [(l, overlay old (a % 64) bs)] } })

/-- A store of the host die inside one frame: it takes the line from a device cache, and lands in memory or, in HBM, may stay in
the cache. -/
def hostPut (a : Nat) (bs : List Byte) (r : Region) (keep : Bool) : Act Unit := do
  match r with
  | .hbm _ => if keep && decide (a % 64 + bs.length ≤ 64) then hostKeep a bs r else writeLinesAt a r bs
  | .ddr =>
    devClean a bs.length
    writeLinesAt a r bs
  | _ => writeLinesAt a r bs

/-- A store of the host die. -/
def hostWrite (a : Nat) (bs : List Byte) (r : Region) (keep : Bool) : Act Unit := do
  let _ ← (piecesOf a bs.length).foldlM (fun rest p => do
    hostPut p.1 (rest.take p.2) r keep
    pure (rest.drop p.2)) bs

/-- The value that an AMO stores, of `n` bytes. -/
def amoVal (op : HostOp) (n old x : Nat) : Nat :=
  let s (v : Nat) : Int := sext v (8 * n)
  match op with
  | .amoAdd => (old + x) % 2 ^ (8 * n)
  | .amoXor => old ^^^ x
  | .amoAnd => old &&& x
  | .amoOr => old ||| x
  | .amoMin => if s old ≤ s x then old else x
  | .amoMax => if s x ≤ s old then old else x
  | .amoMinu => min old x
  | .amoMaxu => max old x
  | .amoSwap => x
  | .load => old
  | .store => x
  | .lr => old
  | .sc => x

/-- A host-core access to a memory tier or a store that is there (R420). -/
def hostMem (hart : Nat) (x : HostAccess) (a : Nat) (r : Region) : Act Unit := do
  let word? := decide ((x.size = 4 ∨ x.size = 8) ∧ a % x.size = 0)
  match x.op with
  | .load =>
    let (bs, bad) ← hostRead a x.size r
    hostAnswer bs false bad
  | .store =>
    hostWrite a (padTo x.size x.data) r x.keep
    hostAnswer [] false false
  | .lr =>
    if !(r.isTier && word?) then hostAnswer [] true false
    else
      let (bs, bad) ← hostRead a x.size r
      modHost (fun h => { h with reserve := sset 0 h.reserve hart (a / 64 + 1) })
      hostAnswer bs false bad
  | .sc =>
    if !(r.isTier && word?) then hostAnswer [] true false
    else
      let ok := decide (sget 0 (← get).host.reserve hart = a / 64 + 1)
      modHost (fun h => { h with reserve := sset 0 h.reserve hart 0 })
      if ok then hostWrite a (padTo x.size x.data) r x.keep
      hostAnswer (natLe x.size (if ok then 0 else 1)) false false
  | op =>
    if !(r.isTier && word?) then hostAnswer [] true false
    else
      let (bs, bad) ← hostRead a x.size r
      if !bad then hostWrite a (natLe x.size (amoVal op x.size (leNat bs) (leNat (padTo x.size x.data)))) r x.keep
      hostAnswer bs false bad

/-- A host-core access to the registers (R41, R420). -/
def hostReg (x : HostAccess) (off : Nat) : Act Unit := do
  if !regSizeOk off x.size then hostAnswer [] true false
  else
    match x.op with
    | .load => hostAnswer (((natLe 8 ((← get).regRead (off / 8 * 8)).toNat).drop (off % 8)).take x.size) false false
    | .store =>
      regStore .host off x.size (word (leNat (padTo x.size x.data)))
      hostAnswer [] false false
    | _ => hostAnswer [] true false

/-- R694: does Doze hold an access that reaches this region? -/
def holdsRegion (r : Region) (off : Nat) : Bool := match r with
  | .hbm _ => true
  | .store _ _ => true
  | .cluster _ _ => true
  | .regs => heldOff off
  | _ => false

/-- R643, step 2: a store to the local store of a core that is moving waits. -/
def Blk.waitsMove (b : Blk) (x : HostAccess) (r : Region) : Bool := decide (x.op ≠ .load) && b.heldStore r

/-- An access through the aperture (R569 to R572). -/
def hostAperture (x : HostAccess) : Act Unit := do
  match x.op with
  | .load => aperture x.addr x.size false { op := 0x03, cls := 4, opnd0 := word x.size }
  | .store => aperture x.addr x.size true { op := 0x01, cls := 4, len := BitVec.ofNat 16 x.size, bytes := padTo x.size x.data }
  | .amoAdd =>
    if x.size = 4 ∨ x.size = 8 then
      aperture x.addr x.size false {
        op := 0x05, cls := 3, aux := BitVec.ofNat 32 (1 <<< 30 ||| (if x.size = 4 then 1 else 0) <<< 27), opnd0 := word (leNat x.data) }
    else aperFault
  | _ => aperFault

/-- HOST_MEMORY_ACCESS (R40): served, held (R694, R643), or an access fault. -/
def hostAccess (hart : Nat) (x : HostAccess) : Act Unit := do
  let b ← get
  let (a, r) := b.resolve x.addr
  let (_, r') := b.resolve (x.addr + x.size - 1)
  let off := x.addr - 0x0F0000000000
  if b.dozing && holdsRegion r off || b.waitsMove x r then holdAccess (.mem hart x)
  else
    match r with
    | .nothing => hostAnswer [] true false
    | .regs => hostReg x off
    | .pcie =>
      let bs ← if x.op = .store then pure [] else freeBytes x.size
      hostAnswer bs false false
    | .aperture => hostAperture x
    | .hbm d => if b.linkDown d || r' ≠ r then hostAnswer [] true false else hostMem hart x a r
    | r => if r' ≠ r then hostAnswer [] true false else hostMem hart x a r

/-- Does a host core run: not stopped after a shutdown or a failed reset check, not halted on a double trap (R448, R713)? -/
def Blk.hartRuns (b : Blk) (hart : Nat) : Bool := !b.host.coresStopped && !b.host.doubleTrap.testBit hart

def execHostMemoryAccess (hart : Fin 32) (x : HostAccess) (s : State) : Host.Outcome State Fault Refusal :=
  s.act (do if (← get).hartRuns hart.val then hostAccess hart.val x)

/-- Serve an access that was held. -/
def serveHeld : Held → Act Unit
  | .reg off size v => regStore .host off size v
  | .mem hart x => hostAccess hart x

/-- R694, R643 step 6: held accesses are served in order; one that still has to wait is held again. -/
def releaseHeld : Act Unit := do
  let hs := (← get).host.held
  modHost (fun h => { h with held := [] })
  hs.forM serveHeld

/-! ### PCIe devices -/

/-- PCIE_DEVICE_REQUEST (R421, R431): the DDR5 tier is what a device reaches; any other address, and an IOMMU fault, is refused. -/
def pcieDevice : PcieReq → Act Unit
  | .read pa len => do
    let (a, r) := (← get).resolve pa
    if r = .ddr ∧ ((← get).resolve (pa + len - 1)).2 = .ddr then
      let (bs, bad) ← hostRead a len r
      hostAnswer bs false bad
    else hostAnswer [] true false
  | .write pa data => do
    let (_, r) := (← get).resolve pa
    if r = .ddr ∧ ((← get).resolve (pa + data.length - 1)).2 = .ddr then
      hostWrite pa data r false
      hostAnswer [] false false
    else hostAnswer [] true false
  | .msi hart file eiid => modify (fun b => b.msi hart.val file.val eiid.toNat)
  | .iommuFault => hostAnswer [] true false

def execPcieDeviceRequest (r : PcieReq) (s : State) : Host.Outcome State Fault Refusal := s.act (pcieDevice r)

/-! ### PLDM monitoring and control (R622, R769) -/

/-- Sensor and effecter `n`: GPIO n below 16, open-drain, low when it drives 0; any other reading is open (log entry 14). -/
def readSensor (n : Nat) : Act Unit := do
  let b ← get
  if n < 16 ∧ b.pwr.keep.gpioOut.getLsbD n ∧ !b.pwr.gpioLvl.getLsbD n then reply .ok [0]
  else
    let i ← fresh
    reply .ok (natLe 4 (Config.sensor n i))

/-- An effecter write: direction, a Persistent setting, and level of a GPIO. -/
def setGpio (n : Nat) (out level : Bool) : Act Unit := do
  let put (x : BitVec 16) (v : Bool) : BitVec 16 := if v then x ||| (1 : BitVec 16) <<< n else x &&& ~~~((1 : BitVec 16) <<< n)
  modPwr (fun p => { p with gpioLvl := put p.gpioLvl level, keep := { p.keep with gpioOut := put p.keep.gpioOut out } })
  reply .ok

/-- A management write of a setting: /ret fields and AON_ALARM (class C1, R624); SEC_POLICY has a class of its own. -/
def mgmtWrite (ch : Channel) (off : Nat) (v : Word) : Act Unit := do
  let ret : Word := if off = Reg.aonAlarm then -1 else ((regDesc off).map (·.ret)).getD 0
  let rw := ((regDesc off).map (·.rw)).getD 0
  if ret &&& rw = 0 ∨ off = Reg.secPolicy then reply (.error 0x02)
  else
    loggedWrite (chanWho ch) .control off (((← get).reg off &&& rw &&& ~~~ret) ||| (v &&& ret))
    reply .ok

/-- A record of the change log as its 32 bytes. -/
def Blk.logRecord (b : Blk) (r : Nat) : List Byte := wordsBytes ((List.range 4).map (fun i => b.reg (Reg.secLog (4 * (r % 1024) + i))))

/-- PLDM_PLATFORM_REQUEST (R622, R624): reads are of class C0, settings and power states of C1, a reset of C2, a factory restore of
C4; reading the events releases ALERT_N (R663). -/
def platformRequest (ch : Channel) : PldmReq → Act Unit
  | .readSensor n => request' ch 0 true (readSensor n)
  | .setGpio n out level => request' ch 1 true (setGpio n.val out level)
  | .writeReg off v => request' ch 1 true (mgmtWrite ch off v)
  | .readEvents => request' ch 0 true (do
      let ev := (← get).dbg.bmc
      modify (fun b => { b with dbg := { b.dbg with bmc := [] } })
      reply .ok (ev.flatMap wordsBytes))
  | .readLog r => request' ch 0 true (do reply .ok ((← get).logRecord r))
  | .dumpWfg => request' ch 0 true (do
      wfgTrigger 4 0
      reply .ok)
  | .power cmd =>
    if cmd = 1 then powerCmd (.mgmt ch) 1 dozeCmd
    else if cmd = 2 then powerCmd (.mgmt ch) 1 sleepCmd
    else if cmd = 4 then powerCmd (.mgmt ch) 2 (requestReset (causeBit 49))
    else if cmd = 5 then powerCmd (.mgmt ch) 4 (restoreAsked ch)
    else request' ch 1 true (reply (.error 0x02))

def execPldmPlatformRequest (ch : Channel) (r : PldmReq) (s : State) : Host.Outcome State Fault Refusal := s.act (platformRequest ch r)

/-! ### The exit from Doze -/

/-- DOZE_EXIT (R692 to R694): a wake source of R692 or R514 that arrives begins the exit, which then ends after `us`
microseconds; `bad` are the dies whose save block fails its check. -/
def dozeExit (why : WakeSrc) (us : Nat) (bad : BitVec 2) : Act Unit := do
  if [1, 2, 4, 5].contains (wakeCode why) then dozeWake (wakeCode why)
  if (← get).fld Reg.aonPwrSts 63 61 = 4 then
    dozeEnd us bad
    releaseHeld

def execDozeExit (why : WakeSrc) (us : Nat) (badSave : BitVec 2) (s : State) : Host.Outcome State Fault Refusal :=
  s.act (dozeExit why us badSave)

/-! ### JTAG (R637) -/

/-- JTAG_INSTRUCTION: boundary scan and bypass touch nothing inside the package, and a private instruction is closed until an
accepted debug unlock; what one then does to the debug unit is not given. -/
def execJtagInstruction (i : JtagInstr) (s : State) : Host.Outcome State Fault Refusal :=
  match i with
  | .bypass => .next s
  | .boundary _ => .next s
  | .priv _ => if s.blk.sec.unlocked then .refused .privateJtag else .next s

/-! ### Idle ticks (log entry 2) -/

/-- What the package does of its own accord while no command waits: steps that only wait for something to be over. -/
def housekeeping : Act Unit := do
  tearStep
  migrateStep
  testStep
  dozeStep
  let b ← get
  if !b.dozing && !b.host.held.isEmpty then releaseHeld

end Sys2Proof.Machine
end

