-- ==== Sys2Proof/Machine/Mat.lean ====
section
/-! DEFINITION. The MAT class: stationary loads, activation streams, accumulator tiles and the varnish stage
(04_arrays_and_accumulators.md). -/
namespace Sys2Proof.Machine

/-- The operand groups of an array (R182). -/
inductive Group where
  | g16
  | g8
  | gint
  | g4
  | gsplit
deriving DecidableEq, Repr

def Fmt.group : Fmt → Option Group
  | .bf16 => some .g16
  | .fp16 => some .g16
  | .e4m3 => some .g8
  | .e5m2 => some .g8
  | .mx8e4m3 => some .g8
  | .mx8e5m2 => some .g8
  | .mx6e3m2 => some .g8
  | .mx6e2m3 => some .g8
  | .int8 => some .gint
  | .mx4 => some .g4
  | .fp32 => some .gsplit
  | _ => none

/-! ### Stationary tiles -/

/-- Is the cell format reached from the source format (R188, R190, R203)? -/
def ldsPair (src dst : Fmt) (tr : Bool) : Bool :=
  dst.group.isSome &&
  (if dst = .fp32 then decide (src = .fp32) && !tr
   else (!tr || decide (src = .bf16 ∨ src = .fp16)) &&
    (decide (src = dst) || (decide (src = .fp32 ∨ src = .bf16 ∨ src = .fp16) && dst.isMx) ||
     decide (src.group = dst.group) || (src.isInt4 && decide (dst = .bf16 ∨ dst = .e4m3 ∨ dst = .e5m2))))

/-- K of the cells: FP32 split stationaries have 64 (R182, R203). -/
def cellK (dst : Fmt) : Nat := if dst = .fp32 then 64 else dst.k

/-- R189: how many frames a load reads, when KSEL allows it. -/
def ldsFrames (src dst : Fmt) (ksel : Nat) : Option Nat :=
  let kc := cellK dst
  if kc < src.k then (if ksel < src.k / kc then some 1 else none)
  else if ksel = 0 then some (kc / src.k) else none

/-- R189, R190: the stationary rows that the source frames give. -/
def ldsRows (src dst : Fmt) (tr : Bool) (ksel : Nat) (fs : List Frame) : List (List Val) :=
  let tiles := fs.map (fun f => chunk src.k 64 (src.values f.data f.side))
  let tiles := if tr then tiles.map (columns .zero 64) else tiles
  let rows := (List.range 64).map (fun n => (tiles.map (fun t => nth t [] n)).flatten)
  if cellK dst < src.k then rows.map (fun r => (r.drop (ksel * cellK dst)).take (cellK dst)) else rows

/-- R203: w as hi and lo. -/
def splitVal (w : Val) : Val × Val :=
  let hi := Machine.bf16.decode (Machine.bf16.convert .rne false 0 w).1
  (hi, Machine.bf16.decode (Machine.bf16.convert .rne false 0 (w.add hi.neg)).1)

/-- R192: the checksum column's values, one for each K element. -/
def checkSums (k : Nat) (rows : List (List Val)) (int : Bool) : List Val :=
  (columns .zero k rows).map (fun l => if int then exactSum l else rne32 (exactSum l))

/-- A stationary source: the core's local store, any cluster store, or a tier (before R188). -/
def Blk.ldsSource (b : Blk) (c : Cx) (a : Nat) (r : Region) : Bool :=
  match r with
  | .store _ _ => b.near c a r
  | _ => true

/-- The instruction's source and cell formats and conversion, when its fields name defined values (R70, R91). -/
def ldsFields (w : Word) : Option (Fmt × Fmt × Conv) := do
  let src ← Fmt.ofCode (bits w 47 44)
  let dst ← Fmt.ofCode (bits w 43 40)
  let rm ← RM.ofCode (bits w 39 37)
  if ldsPair src dst (bit w 36) && (ldsFrames src dst (bits w 33 32)).isSome then
    some (src, dst, ⟨rm, bit w 34, if bit w 35 then .fit else .floor⟩)
  else none

/-- R116, R117: the census categories of an element that the load path delivers unchanged: a NaN stays NaN, and a magnitude
below the leading bit is subnormal (`mb` is the width of M). -/
def keptCats (mb : Nat) (v : Val) : Nat :=
  match v with
  | .nan => 1 + 256
  | .inf _ => 1
  | .fin _ m _ => 1 + 16 * b2n (decide (0 < m ∧ m < 2 ^ mb))

/-- The same for a row-major list of elements of a format. -/
def Fmt.keptCats (f : Fmt) (vals : List Val) : List Nat := vals.map (Machine.keptCats ((f.flt.map (·.mb)).getD 0))

/-- R185 to R192, R203, R204: what a load puts into the underpainting set (and the visible set, for a split load), with the
census categories it counts. -/
def ldsTile (src dst : Fmt) (cv : Conv) (rows : List (List Val)) (seed : Word) (tile : Nat) :
    StatTile × Option StatTile × List Nat :=
  if dst = .fp32 then
    let sp := rows.flatten.map splitVal
    let chk := (checkSums 64 rows false).map splitVal
    (⟨dst, true, sp.map (·.1), chk.map (·.1)⟩, some ⟨dst, true, sp.map (·.2), chk.map (·.2)⟩, dst.keptCats rows.flatten)
  else if src = dst then
    (⟨dst, false, rows.flatten, checkSums dst.k rows (decide (dst = .int8))⟩, none, dst.keptCats rows.flatten)
  else
    let cv := if src.isInt4 then { cv with rm := .rne, sat := true } else cv
    let rnd := (List.range (64 * dst.k)).map (fun e => srDraw seed tile (0x200 + e / dst.k) (e % dst.k))
    let out := dst.encode cv rows.flatten rnd
    let vals := dst.values out.data out.side
    (⟨dst, false, vals, checkSums dst.k (chunk dst.k 64 vals) (decide (dst = .int8))⟩, none, out.cats)

/-- MAT.LDS (R185). -/
def matLds (w : Word) (c : Cx) : Act Unit := do
  match ldsFields w with
  | none => throw 0x0A
  | some (src, dst, cv) =>
    let va := (← sreg c (bits w 4 0)).toNat
    let ksel := bits w 33 32
    let n := (ldsFrames src dst ksel).getD 1
    need (va % 8192 = 0) 0x0A
    (List.range n).forM (fun i => do
      let (a, r) ← rdAddr c (va + i * 8192)
      need ((← get).ldsSource c a r) 0x02)
    let fs ← (List.range n).mapM (fun i => rdFrame' c (va + i * 8192))
    match fs.find? (fun f => decide (f.2 ≠ 0)) with
    | some f =>
      modSlot c.key (fun s => { s with under := none, ldsSince := true })
      throw f.2
    | none =>
      need (fs.all (fun f => headerIs f.1.hdr src)) 0x0A
      let rows := ldsRows src dst (bit w 36) ksel (fs.map (·.1))
      let (u, v, cats) := ldsTile src dst cv rows ((← get).slot c.key).seed ((va % 2 ^ 42) / 128)
      modSlot c.key (fun s => { s with under := some u, visible := v.or s.visible, underReady := false, ldsSince := true })
      census c 0 dst cats

def execMatLds (m : Member) (w : Word) (s : State) : Host.Outcome State Fault Refusal :=
  s.upd (issue m w 3 0x00 (wordOk w false (0, 0) &&
    rsvdOk w [(47, 44), (43, 40), (39, 37), (36, 36), (35, 35), (34, 34), (33, 32), (4, 0)]) (matLds w))

/-- UNDERPAINTING_READY (R192, R193): the load that was issued last has ended. -/
def underpaintingReady (m : Member) (b : Blk) : Blk :=
  match b.memberKey m with
  | some k => if (b.slot k).ldsSince then b.setSlot k { b.slot k with underReady := true } else b
  | none => b

def execUnderpaintingReady (m : Member) (s : State) : Host.Outcome State Fault Refusal := s.upd (underpaintingReady m)

/-- MAT.SWP (R186, R187, R204): it waits for the load that it follows. -/
def matSwp (c : Cx) : Act Unit := do
  let s := (← get).slot c.key
  need (s.ldsSince && !(s.visible.any (·.split))) 0x0A
  if !s.underReady then throw notYet
  modSlot c.key (fun s => { s with visible := s.under, under := s.visible, ldsSince := false })

def execMatSwp (m : Member) (w : Word) (s : State) : Host.Outcome State Fault Refusal :=
  s.upd (issue m w 3 0x01 (wordOk w false (0, 0) && rsvdOk w []) matSwp)

/-! ### Accumulators -/

/-- The key of an accumulator slot within its core. -/
def accKey (a slot : Nat) : Nat := a * 8 + slot
def Blk.accSlot (b : Blk) (core a slot : Nat) : AccSlot := sget {} (b.core core).acc (accKey a slot)
def Blk.setAccSlot (b : Blk) (core a slot : Nat) (x : AccSlot) : Blk :=
  b.setCore core { b.core core with acc := sset {} (b.core core).acc (accKey a slot) x }

/-- The slot that a tile index names (R198). -/
def accIdx (w16 : Bool) (t : Nat) : Nat := if w16 then t / 2 else t

/-- R163, R199: may the context slot use this accumulator slot? -/
def Blk.quarterOk (b : Blk) (c : Cx) (slot : Nat) : Bool :=
  if c.bf then b.bfEn c.die c.p && decide (6 ≤ slot) else !b.bfEn c.die c.p || decide (slot < 6)

/-- The tile that a tile index holds (R198, R200). -/
def AccSlot.tile (x : AccSlot) (w16 : Bool) (t : Nat) : Option AccTile := if w16 ∧ t % 2 = 1 then x.hi else x.lo

/-- R200, R221: the cause with which a use of a tile faults, 0 if none. -/
def AccSlot.useFault (x : AccSlot) (w16 : Bool) (t : Nat) : Nat :=
  match x.st with
  | .free => 0x0A
  | .lost => 0x06
  | _ => if x.w16 ≠ w16 ∨ (x.tile w16 t).isNone then 0x0A else 0

/-- R201: the slot after a stream has put a tile into it. -/
def AccSlot.put (x : AccSlot) (w16 : Bool) (t : Nat) (tile : AccTile) : AccSlot :=
  let keep := decide (x.w16 = w16) && w16
  { st := if x.st = .persistent then .persistent else .live, w16 := w16,
    lo := if w16 ∧ t % 2 = 1 then (if keep then x.lo else none) else some tile,
    hi := if w16 ∧ t % 2 = 1 then some tile else if keep then x.hi else none }

/-- R200, R201: the slot after a drain has released a tile.  In 16-bit width each half has its own state, and the slot stays
live while its other half is (log entry 98). -/
def AccSlot.drained (x : AccSlot) (w16 : Bool) (t : Nat) : AccSlot :=
  let y : AccSlot := if t % 2 = 1 then { x with hi := none } else { x with lo := none }
  if w16 && (y.lo.isSome || y.hi.isSome) then y else {}

/-- A tile that has not been started: every element has no value before its first cycle (R106). -/
def AccTile.fresh (int : Bool) : AccTile := ⟨int, List.replicate 4096 0, List.replicate 64 0, false⟩

/-- The integer of an exact integer value. -/
def Val.int : Val → Int
  | .fin s m e => if s then -((m <<< e.toNat : Nat) : Int) else ((m <<< e.toNat : Nat) : Int)
  | _ => 0

/-- R109: an integer accumulator of `w` bits after one cycle, and whether it saturated. -/
def intAcc (w : Nat) (prev : Int) (terms : List Val) : Nat × Bool :=
  let x := terms.foldl (fun a t => a + t.int) prev
  let lo : Int := -((2 ^ (w - 1) : Nat) : Int)
  let hi : Int := ((2 ^ (w - 1) : Nat) : Int) - 1
  let y := min (max x lo) hi
  ((y % ((2 ^ w : Nat) : Int)).toNat, decide (x ≠ y))

/-- The passes of one activation row over one column: the products of each cycle (R105, R205). -/
def rowPasses (act : List Val) (hi lo : List Val) (split : Bool) : List (List Val) :=
  if split then
    let sp := act.map splitVal
    let ah := sp.map (·.1)
    let al := sp.map (·.2)
    [List.zipWith Val.mul ah hi, List.zipWith Val.mul ah lo, List.zipWith Val.mul al hi]
  else [List.zipWith Val.mul act hi]

/-- R106, R107: run the cycles of a row through a column's floating-point accumulator. -/
def fltPasses (f : FFmt) (win : Nat) (start : Bool) (prev : Nat) (ps : List (List Val)) : Nat :=
  (ps.foldl (fun (a : Bool × Nat) t => (false, treeSum f win (if a.1 then t else f.decode a.2 :: t))) (start, prev)).2

/-- The stationary operand of a stream: rows of the visible set; for a split stream hi from the underpainting set and lo
from the visible set, with the checksum columns (R203, R205). -/
structure Operand where
  hi : List (List Val)
  lo : List (List Val)
  chkHi : List Val
  chkLo : List Val
  split : Bool

/-- One activation tile accumulated into one accumulator tile (R180, R195, R205, R219). -/
def accumulate (op : Operand) (int w16 start : Bool) (act : List (List Val)) (prev : AccTile) : AccTile :=
  let rows := List.zipWith (fun j a => (j, a)) (List.range 64) act
  if int then
    let w := if w16 then 16 else 32
    let cols := rows.flatMap (fun ja => (List.zipWith (fun n h => (n, h)) (List.range 64) op.hi).map (fun nh =>
      intAcc w (if start then 0 else sext (nth prev.vals 0 (64 * ja.1 + nh.1)) w) (List.zipWith Val.mul ja.2 nh.2)))
    ⟨true, cols.map (·.1),
      rows.map (fun ja => (List.zipWith Val.mul ja.2 op.chkHi).foldl (fun x t => x + t.int)
        (if start then 0 else nth prev.chk 0 ja.1)),
      (!start && prev.sat) || cols.any (·.2)⟩
  else
    let f := if w16 then f16 else f32
    let win := if w16 then 23 else 39
    ⟨false,
      rows.flatMap (fun ja => (List.range 64).map (fun n =>
        fltPasses f win start (nth prev.vals 0 (64 * ja.1 + n)) (rowPasses ja.2 (nth op.hi [] n) (nth op.lo [] n) op.split))),
      rows.map (fun ja => (fltPasses f32 39 start (nth prev.chk 0 ja.1).toNat (rowPasses ja.2 op.chkHi op.chkLo op.split) : Nat)),
      !start && prev.sat⟩

/-- The operand that the stationary sets of a slot give to activations of a format (R182, R187, R204, R205). -/
def Slot.operand (s : Slot) (f : Fmt) : Option Operand :=
  match s.visible with
  | none => none
  | some v =>
    let k := cellK v.fmt
    if f.group ≠ v.fmt.group then none
    else if v.split then
      match s.under with
      | some u =>
        if u.split then some ⟨chunk k 64 u.vals, chunk k 64 v.vals, u.chk, v.chk, true⟩ else none
      | none => none
    else some ⟨chunk k 64 v.vals, [], v.chk, [], false⟩

/-- A tile whose accumulators hold values of the other kind: the spec states no result, so every element is a free value
(log entry 14). -/
def freeTile (int w16 : Bool) (n : Nat) : AccTile :=
  ⟨int, (List.range 4096).map (fun i => (Config.freeWord (n + i)).toNat % 2 ^ (if w16 then 16 else 32)),
    (List.range 64).map (fun i => ((Config.freeWord (n + 4096 + i)).toNat % 2 ^ 32 : Nat)), false⟩

/-- An FP32 activation row has 64 elements and a frame holds 32 columns, so a split tile takes two consecutive frames; every
other activation tile is one frame (R180, R182, R205, R219; log entry 21). -/
def strFrames (f : Fmt) : Nat := if f = .fp32 then 2 else 1

/-- The activation rows of a tile (R180). -/
def actRows (f : Fmt) (fs : List Frame) : List (List Val) :=
  let ts := fs.map (fun x => chunk f.k 64 (f.values x.data x.side))
  (List.range 64).map (fun j => (ts.map (fun t => nth t [] j)).flatten)

/-- R219: one tile of the stream of one array. -/
def strTile (c : Cx) (op : Operand) (f : Fmt) (start w16 : Bool) (a t : Nat) (fs : List Frame) : Act Unit := do
  let b ← get
  let core := coreKey c.die c.p
  let sl := accIdx w16 t
  let x := b.accSlot core a sl
  let int := decide (f = .int8)
  let prev := (x.tile w16 t).getD (AccTile.fresh int)
  if !start && decide (prev.int ≠ int) then
    set ({ b with free := b.free + 4160 }.setAccSlot core a sl (x.put w16 t (freeTile int w16 b.free)))
  else set (b.setAccSlot core a sl (x.put w16 t (accumulate op int w16 start (actRows f fs) prev)))

/-- The arrays that a mask selects. -/
def arraysOf (w : Word) : List Nat := bitsOf (bits w 47 44) 4

/-- MAT.STR (R219, R221): every check is made first; a bad frame ends the stream of its array alone. -/
def matStr (w : Word) (c : Cx) : Act Unit := do
  let w16 := bit w 35
  let start := bit w 36
  let acc := bits w 43 40
  let cnt := bits w 39 37
  let core := coreKey c.die c.p
  match Fmt.ofCode (bits w 34 31) with
  | none => throw 0x0A
  | some f =>
    let b ← get
    let tiles := (List.range (cnt + 1)).map (acc + ·)
    need (f.group.isSome && decide (acc + cnt ≤ if w16 then 15 else 7) && !(decide (f = .fp32) && w16)) 0x0A
    match (b.slot c.key).operand f with
    | none => throw 0x0A
    | some op =>
      if op.split && !(b.slot c.key).underReady then throw notYet
      need ((arraysOf w).all (fun _ => tiles.all (fun t => b.quarterOk c (accIdx w16 t)))) 0x02
      (arraysOf w).forM (fun a => tiles.forM (fun t => do
        let e := if start then 0 else (b.accSlot core a (accIdx w16 t)).useFault w16 t
        need (e = 0) e))
      let base := (b.sreg c.key (bits w 9 5)).toNat
      let stride := (b.sreg c.key (bits w 4 0)).toNat
      let n := strFrames f
      let va (a i : Nat) : Nat := (base + a * stride + i * 8192) % 2 ^ 64
      (arraysOf w).forM (fun a => (List.range (n * (cnt + 1))).forM (fun i => do
        need (va a i % 8192 = 0) 0x0A
        let (pa, r) ← rdAddr c (va a i)
        need ((← get).near c pa r) 0x02))
      let frames ← (arraysOf w).mapM (fun a => do
        let fs ← (List.range (n * (cnt + 1))).mapM (fun i => rdFrame' c (va a i) (fun b => b.near c))
        pure (a, chunk n (cnt + 1) fs))
      need (frames.all (fun x => x.2.all (fun g => g.all (fun fr => decide (fr.2 ≠ 0) || headerIs fr.1.hdr f)))) 0x0A
      frames.forM (fun x =>
        (List.zipWith (fun t g => (t, g)) tiles (x.2.takeWhile (fun g => g.all (fun fr => decide (fr.2 = 0))))).forM
          (fun tg => strTile c op f start w16 x.1 tg.1 (tg.2.map (·.1))))
      match (frames.flatMap (fun x => x.2.flatten)).find? (fun fr => decide (fr.2 ≠ 0)) with
      | some fr => throw fr.2
      | none => pure ()

def execMatStr (m : Member) (w : Word) (s : State) : Host.Outcome State Fault Refusal :=
  s.upd (issue m w 3 0x02 (wordOk w false (0, 0) &&
    rsvdOk w [(47, 44), (43, 40), (39, 37), (36, 36), (35, 35), (34, 31), (9, 5), (4, 0)]) (matStr w))

/-! ### Slot states -/

/-- R201: what MAT.SLOT makes of a slot: 0 release, 1 persist, 2 unpersist. -/
def AccSlot.act (x : AccSlot) (act : Nat) : AccSlot :=
  match act, x.st with
  | 0, _ => {}
  | 1, .live => { x with st := .persistent }
  | 2, .persistent => { x with st := .live }
  | _, _ => x

/-- MAT.SLOT (R201, R221): a lost slot takes a release alone. -/
def matSlot (act : Nat) (w : Word) (c : Cx) : Act Unit := do
  let b ← get
  let core := coreKey c.die c.p
  let slots := bitsOf (bits w 7 0) 8
  need (bits w 43 42 = act) 0x0A
  need (slots.all (b.quarterOk c)) 0x02
  (arraysOf w).forM (fun a => slots.forM (fun i =>
    need (act = 0 || decide ((b.accSlot core a i).st ≠ .lost)) 0x06))
  (arraysOf w).forM (fun a => slots.forM (fun i =>
    modify (fun b => b.setAccSlot core a i ((b.accSlot core a i).act act))))

def matSlotOk (w : Word) : Bool := wordOk w false (0, 0) && rsvdOk w [(47, 44), (43, 42), (7, 0)]

/-- Is the word one of this row: its ACT, or the reserved one, which faults (R218)? -/
def matSlotRow (act : Nat) (w : Word) : Bool := decide (bits w 43 42 = act ∨ bits w 43 42 = 3)

def execMatSlotRelease (m : Member) (w : Word) (s : State) : Host.Outcome State Fault Refusal :=
  s.upd (fun b => if matSlotRow 0 w then issue m w 3 0x04 (matSlotOk w) (matSlot 0 w) b else b)

def execMatSlotPersist (m : Member) (w : Word) (s : State) : Host.Outcome State Fault Refusal :=
  s.upd (fun b => if matSlotRow 1 w then issue m w 3 0x04 (matSlotOk w) (matSlot 1 w) b else b)

def execMatSlotUnpersist (m : Member) (w : Word) (s : State) : Host.Outcome State Fault Refusal :=
  s.upd (fun b => if matSlotRow 2 w then issue m w 3 0x04 (matSlotOk w) (matSlot 2 w) b else b)

/-! ### The varnish stage -/

/-- The fields of MAT.DRN (R220). -/
structure Drain where
  w16 : Bool
  acc : Nat
  fmt : Fmt
  cv : Conv
  rel : Bool
  sb : Bool
  stat : Nat
  cmb : Bool
  msk : Nat
  mfill : Bool
  slot : Nat
  dreg : Nat
  dsreg : Nat
  sbreg : Nat
  streg : Nat
  mreg : Nat

/-- R215: how many column slots of 64 a destination frame has; 0 for FP32 and INT32, whose 64 columns fill two frames. -/
def Fmt.dstSlots (f : Fmt) : Nat := f.k / 64

/-- The fields, when all hold defined values (R143, R209, R210, R215, R220). -/
def drainFields (w x : Word) : Option Drain := do
  let f ← Fmt.ofCode (bits w 38 35)
  let rm ← RM.ofCode (bits w 34 32)
  let d : Drain := {
    w16 := bit w 39, acc := bits w 43 40, fmt := f, cv := ⟨rm, bit w 31, if bit w 30 then .fit else .floor⟩, rel := bit w 29,
    sb := bit w 28, stat := bits w 27 25, cmb := bit w 24, msk := bits w 23 22, mfill := bit w 21, slot := bits w 20 19,
    dreg := bits w 9 5, dsreg := bits w 4 0, sbreg := bits x 14 10, streg := bits x 9 5, mreg := bits x 4 0 }
  if !f.isInt4 && decide (d.stat < 4) && decide (d.msk < 3) && decide (d.slot < max f.dstSlots 1) &&
      (d.w16 || decide (d.acc < 8)) && (d.sb || decide (d.sbreg = 0)) && (decide (d.stat ≠ 0) || decide (d.streg = 0)) &&
      (decide (d.msk ≠ 0) || decide (d.mreg = 0)) then some d
  else none

/-- R209: is position (r, c) of array `a` excluded?  `reg` is MREG's value and `bm` the array's bitmap as a number. -/
def excluded (msk : Nat) (reg : Word) (bm : Nat) (a r c : Nat) : Bool :=
  match msk with
  | 1 => decide (bits reg 31 0 + 64 * a + r < bits reg 63 32 + c)
  | 2 => bm.testBit (r * 64 + c)
  | _ => false

/-- What the check of one row finds (R196). -/
inductive RowCheck where
  | ok
  | skip
  | fail
deriving DecidableEq, Repr

/-- R196: the check of one row, on accumulator values; `t` is the tolerance exponent. -/
def checkRow (int sat : Bool) (t : Nat) (row : List Val) (chk : Val) : RowCheck :=
  let finite (v : Val) : Bool := match v with
    | .fin _ _ _ => true
    | _ => false
  if sat || !(row.all finite && finite chk) then .skip
  else
    let d := (exactSum row).add chk.neg
    if int then (if d.isZero then .ok else .fail)
    else
      let mag := exactSum ((chk :: row).map (Val.withSign false))
      if (mag.scale (-(t : Int))).cmp (d.withSign false) < 0 then .fail else .ok

/-- R206 steps 1 and 2. -/
def drainVal (d : Drain) (int : Bool) (v scale bias : Val) : Val :=
  if d.sb then
    let v := if int then rne32 v else v
    rne32 ((v.mul scale).add bias)
  else v

/-- R206 step 4: what an excluded position becomes under MFILL, outside the MX formats. -/
def fillVal (f : Fmt) : Val :=
  match f with
  | .e4m3 => .fin true 448 0
  | .int8 => .ofInt (-128)
  | .int16 => .ofInt (-32768)
  | .int32 => .ofInt (-2147483648)
  | _ => .inf true

/-- R206 step 5: quantize one block of an MX row in which some positions are marked. -/
def quantMarked (f : Fmt) (cv : Conv) (rnd : List Nat) (l : List (Val × Bool)) : MxBlock :=
  let g := f.flt.getD e2m1
  let neg := g.maxCode + g.signBit true
  if l.all (·.2) then ⟨0xFE, l.map (fun _ => neg), 512 :: l.map (fun _ => 1)⟩
  else
    let q := quantBlock f cv.rule cv.rm rnd (l.map (fun p => if p.2 then .zero else p.1))
    ⟨q.scale, List.zipWith (fun (p : Val × Bool) x => if p.2 then (if q.scale = 0xFF then 0 else neg) else x) l q.codes,
      q.cats.headD 0 :: List.zipWith (fun (p : Val × Bool) x => if p.2 then 1 else x) l (q.cats.drop 1)⟩

/-- One row of 64 converted columns: element codes, block scales, census categories. -/
structure RowOut where
  codes : List Nat
  scales : List Nat
  cats : List Nat

/-- R206 steps 4 to 6 for one row: the values with their exclusions, and the draws of the 64 lanes (R208). -/
def drainRow (d : Drain) (row : List (Val × Bool)) (rnd : List Nat) : RowOut :=
  if d.fmt.isMx then
    let bs := List.zipWith (quantMarked d.fmt d.cv) (chunk 32 2 rnd) (chunk 32 2 (row.map (fun p => (p.1, p.2 && d.mfill))))
    ⟨(bs.map (·.codes)).flatten, bs.map (·.scale), (bs.map (·.cats)).flatten⟩
  else
    let es := List.zipWith (fun (p : Val × Bool) r =>
      d.fmt.convert1 d.cv r (if p.2 && d.mfill then fillVal d.fmt else p.1)) row rnd
    ⟨es.map (·.1), [], es.map (·.2)⟩

/-- The statistics vectors of one array, by vector (R210 to R213), combined with stored ones when given. -/
def drainStats (d : Drain) (rows : List (List (Val × Bool))) (old : List (List Val)) : List (List Val) :=
  let keep (l : List (Val × Bool)) : List Val := (l.filter (fun p => !p.2)).map (·.1)
  let o (v i : Nat) : Val := nth (nth old [] v) .zero i
  let each (f : Nat → List Val → Val × Val × Val) (rs : List (List (Val × Bool))) : List (Val × Val × Val) :=
    List.zipWith (fun i r => f i (keep r)) (List.range 64) rs
  match d.stat with
  | 1 =>
    let x := each (fun i l =>
      let t := rowStats l
      let t := if d.cmb then combineStats (o 0 i, o 1 i) t else t
      (t.1, t.2, .zero)) rows
    [x.map (·.1), x.map (·.2.1)]
  | 2 =>
    let one (v : Nat) (rs : List (List (Val × Bool))) : List Val := (each (fun i l =>
      let t := rne32 (exactSq l)
      (if d.cmb then fadd (o v i) t else t, .zero, .zero)) rs).map (·.1)
    [one 0 rows, one 1 (columns (.zero, true) 64 rows)]
  | 3 =>
    let x := each (fun i l =>
      let t := meanVar l
      let t := if d.cmb then (MeanVar.mk (o 0 i) (o 1 i) (o 2 i)).combine t else t
      (t.n, t.mu, t.m2)) rows
    [x.map (·.1), x.map (·.2.1), x.map (·.2.2)]
  | _ => []

/-- R197: one arithmetic check event: recorded, raised to firmware in modes 2 and 3 (its times within the window count
toward ACHK_FENCE, R641). -/
def checkEvent (c : Cx) (d : Drain) (a row : Nat) : Act Unit := do
  let b ← get
  let off := Reg.accChkSts c.die c.p
  if bit (b.reg off) 63 then setFld off 62 62 1
  else setReg off (word (1 <<< 63 ||| b2n c.bf <<< 61 ||| a <<< 59 ||| d.acc <<< 55 ||| row <<< 49 ||| b2n d.w16 <<< 48
    ||| c.ctx.toNat <<< 32 ||| c.layer.toNat <<< 16 ||| c.oper.toNat))
  if 2 ≤ b.fld (Reg.accChkCtrl c.die c.p) 1 0 then
    modCore (coreKey c.die c.p) (fun k => { k with achk := k.achk ++ [b.now] })

/-- R214, R215: where a drain of array `a` writes: the frame and its successor for a 32-bit format. -/
def drainDst (c : Cx) (b : Blk) (d : Drain) (a : Nat) : Nat :=
  ((b.sreg c.key d.dreg).toNat + a * (b.sreg c.key d.dsreg).toNat) % 2 ^ 64

/-- R215, R216: write the converted rows of one array. -/
def drainWrite (c : Cx) (d : Drain) (dst : Nat) (rows : List RowOut) (sat poison : Bool) : Act Unit := do
  let f := d.fmt
  if f.k = 32 then
    wrFrame c dst ⟨c.header f sat 0 poison, [], f.pack (rows.flatMap (fun r => r.codes.take 32))⟩
    wrFrame c (dst + 8192) ⟨c.header f sat 0 poison, [], f.pack (rows.flatMap (fun r => r.codes.drop 32))⟩
  else if f.k = 64 then wrFrame c dst ⟨c.header f sat 0 poison, [], f.pack (rows.flatMap (·.codes))⟩
  else
    let (a, _) ← wrAddr c dst
    let b ← get
    let m := b.fmeta (a / 8192)
    let h := c.header f (m.hdr.sat || sat) m.hdr.empty (m.hdr.poison || poison) m.hdr.stamp.toNat
    let width := 8 * f.bits
    let b := (List.zipWith (fun i r => (i, r)) (List.range 64) rows).foldl (fun b ir =>
      b.putBytes (a + ir.1 * f.rowBytes + d.slot * width) (natLe width (packNat f.bits ir.2.codes))) b
    let per := f.k / 32
    let side := if f.isMx then
        (List.zipWith (fun i r => (i, r)) (List.range 64) rows).foldl (fun s ir =>
          overlay s (ir.1 * per + 2 * d.slot) (ir.2.scales.map (BitVec.ofNat 8))) (padTo 512 m.side)
      else m.side
    set (b.setFmeta (a / 8192) { m with hdr := h, side := side })

/-- A tile read by a drain of one array: its accumulator tile, its exclusions and its stored statistics. -/
structure DrainIn where
  a : Nat
  dst : Nat
  tile : AccTile
  bm : Nat
  old : List (List Val)

/-- The drain of one array, after every check (R196, R197, R206 to R216). -/
def drainArray (c : Cx) (d : Drain) (reg : Word) (scale bias : List Val) (x : DrainIn) : Act Unit := do
  let b ← get
  let core := coreKey c.die c.p
  let mode := b.fld (Reg.accChkCtrl c.die c.p) 1 0
  let t := if d.w16 then b.fld (Reg.accChkCtrl c.die c.p) 20 16 else b.fld (Reg.accChkCtrl c.die c.p) 12 8
  let dec (v : Nat) : Val := if x.tile.int then ofInt (if d.w16 then 16 else 32) v else (if d.w16 then f16 else f32).decode v
  let acc := chunk 64 64 (x.tile.vals.map dec)
  let chks := x.tile.chk.map (fun v => if x.tile.int then Val.ofInt v else ofF32 v.toNat)
  let res := if mode = 0 then [] else List.zipWith (checkRow x.tile.int x.tile.sat t) acc chks
  let fails := (List.zipWith (fun i r => (i, r)) (List.range 64) res).filter (fun p => decide (p.2 = .fail))
  if mode ≠ 0 then
    countFld (Reg.accChkCnt c.die c.p) 63 32 (res.filter (fun r => decide (r = .skip))).length
    countFld (Reg.accChkCnt c.die c.p) 31 0 fails.length
  match fails.head? with
  | some p => checkEvent c d x.a p.1
  | none => pure ()
  let ys := List.zipWith (fun r row => List.zipWith (fun j v =>
    (drainVal d x.tile.int v (nth scale .zero j) (nth bias .zero j), excluded d.msk reg x.bm x.a r j)) (List.range 64) row)
    (List.range 64) acc
  let draw (r j : Nat) : Nat :=
    let dst := if d.fmt.k = 32 ∧ 32 ≤ j then x.dst + 8192 else x.dst
    srDraw (b.slot c.key).seed ((dst % 2 ^ 42) / 128) (0x100 + 64 * x.a + j) r
  let outs := List.zipWith (fun r row => drainRow d row ((List.range 64).map (draw r))) (List.range 64) ys
  drainWrite c d x.dst outs x.tile.sat (decide (mode = 3) && !fails.isEmpty)
  (List.zipWith (fun i v => (i, v)) (List.range 3) (drainStats d ys x.old)).forM (fun iv =>
    wrBytes c (((b.sreg c.key d.streg).toNat + 1024 * x.a + 256 * iv.1) % 2 ^ 64) (f32Bytes (f32Codes iv.2)))
  let infs := (acc.flatten.filter (fun v => decide (v = .inf false ∨ v = .inf true))).map (fun _ => 2 ^ 12)
  census c 1 d.fmt ((outs.map (·.cats)).flatten ++ infs ++ (if x.tile.sat then [2 ^ 13] else []))
  if d.rel then modify (fun b =>
    b.setAccSlot core x.a (accIdx d.w16 d.acc) ((b.accSlot core x.a (accIdx d.w16 d.acc)).drained d.w16 d.acc))

/-- How many statistics vectors STAT has (R210). -/
def statVectors (stat : Nat) : Nat := match stat with
  | 1 => 2
  | 2 => 2
  | 3 => 3
  | _ => 0

/-- MAT.DRN (R206, R221): nothing is written unless every check and every read succeeds. -/
def matDrn (w x : Word) (c : Cx) : Act Unit := do
  match drainFields w x with
  | none => throw 0x0A
  | some d =>
    let b ← get
    let core := coreKey c.die c.p
    let sl := accIdx d.w16 d.acc
    let arrays := arraysOf w
    need (arrays.isEmpty || b.quarterOk c sl) 0x02
    arrays.forM (fun a => do
      let e := (b.accSlot core a sl).useFault d.w16 d.acc
      need (e = 0) e)
    let reg (n : Nat) : Nat := (b.sreg c.key n).toNat
    need ((!d.sb || decide (reg d.sbreg % 256 = 0)) && (decide (d.stat = 0) || decide (reg d.streg % 256 = 0)) &&
      (decide (d.msk ≠ 2) || decide (reg d.mreg % 512 = 0)) && arrays.all (fun a => decide (drainDst c b d a % 8192 = 0))) 0x0A
    let nv := statVectors d.stat
    arrays.forM (fun a => do
      wrCheck c (drainDst c b d a) (if d.fmt.k = 32 then 16384 else 8192) (fun b => b.near c)
      if nv ≠ 0 then wrCheck c ((reg d.streg + 1024 * a) % 2 ^ 64) (256 * nv) (fun b => b.ownLocal c))
    let sb ← if d.sb && !arrays.isEmpty then rdBytes c (reg d.sbreg) 512 (fun b => b.ownLocal c) else pure []
    let xs ← arrays.mapM (fun a => do
      let bm ← if d.msk = 2 then rdBytes c ((reg d.mreg + 512 * a) % 2 ^ 64) 512 (fun b => b.near c) else pure []
      let old ← if d.cmb && decide (nv ≠ 0) then rdBytes c ((reg d.streg + 1024 * a) % 2 ^ 64) (256 * nv) (fun b => b.ownLocal c)
        else pure []
      let tile := ((b.accSlot core a sl).tile d.w16 d.acc).getD (AccTile.fresh false)
      pure (DrainIn.mk a (drainDst c b d a) tile (leNat bm) (chunk 64 nv (f32s old (64 * nv)))))
    let vec := f32s sb 128
    xs.forM (drainArray c d (b.sreg c.key d.mreg) (vec.take 64) (vec.drop 64))

def execMatDrn (m : Member) (w x : Word) (s : State) : Host.Outcome State Fault Refusal :=
  s.upd (issue m w 3 0x03 (wordOk w true (0, 0) && rsvdOk w [(47, 19), (9, 0)] && rsvdExt x [(14, 0)]) (matDrn w x))

end Sys2Proof.Machine
end

