-- ==== Sys2Proof/Machine/Dispatch.lean ====
section
/-! DEFINITION. One arm for each command. -/
namespace Sys2Proof.Machine
def exec (i : Instr) (s : State) : Host.Outcome State Fault Refusal :=
  match i with
  | .registerWrite src off size v => Sys2Proof.Machine.execRegisterWrite src off size v s
  | .hostMemoryAccess hart a => Sys2Proof.Machine.execHostMemoryAccess hart a s
  | .pkgNumberWrite src v => Sys2Proof.Machine.execPkgNumberWrite src v s
  | .ucieRetrainStart u => Sys2Proof.Machine.execUcieRetrainStart u s
  | .ucieRetrainDone u => Sys2Proof.Machine.execUcieRetrainDone u s
  | .ucieRetrainTimeout u => Sys2Proof.Machine.execUcieRetrainTimeout u s
  | .bindFg src die ctx => Sys2Proof.Machine.execBindFg src die ctx s
  | .bindBf src die ctx => Sys2Proof.Machine.execBindBf src die ctx s
  | .unbind src die ctx => Sys2Proof.Machine.execUnbind src die ctx s
  | .abort src die ctx => Sys2Proof.Machine.execAbort src die ctx s
  | .abortComplete ctx => Sys2Proof.Machine.execAbortComplete ctx s
  | .prtDoorbell page v => Sys2Proof.Machine.execPrtDoorbell page v s
  | .prtSignal page v => Sys2Proof.Machine.execPrtSignal page v s
  | .instructionFetch m => Sys2Proof.Machine.execInstructionFetch m s
  | .seqNop m w => Sys2Proof.Machine.execSeqNop m w s
  | .seqEnd m w => Sys2Proof.Machine.execSeqEnd m w s
  | .streamEnd ctx => Sys2Proof.Machine.execStreamEnd ctx s
  | .seqLoop m w => Sys2Proof.Machine.execSeqLoop m w s
  | .seqTag m w => Sys2Proof.Machine.execSeqTag m w s
  | .seqFence m w => Sys2Proof.Machine.execSeqFence m w s
  | .seqSeed m w x => Sys2Proof.Machine.execSeqSeed m w x s
  | .seqScalar m w x => Sys2Proof.Machine.execSeqScalar m w x s
  | .seqMask m w => Sys2Proof.Machine.execSeqMask m w s
  | .syncWait m w x => Sys2Proof.Machine.execSyncWait m w x s
  | .syncSignal m w x => Sys2Proof.Machine.execSyncSignal m w x s
  | .syncArrive m w x => Sys2Proof.Machine.execSyncArrive m w x s
  | .syncSet m w x => Sys2Proof.Machine.execSyncSet m w x s
  | .syncSignalR m w x => Sys2Proof.Machine.execSyncSignalR m w x s
  | .syncArriveR m w x => Sys2Proof.Machine.execSyncArriveR m w x s
  | .syncSignalApply n => Sys2Proof.Machine.execSyncSignalApply n s
  | .waitLimitExpiry m => Sys2Proof.Machine.execWaitLimitExpiry m s
  | .coreSyncOwnWrite src obj v => Sys2Proof.Machine.execCoreSyncOwnWrite src obj v s
  | .coreBfCtrlWrite src die p v => Sys2Proof.Machine.execCoreBfCtrlWrite src die p v s
  | .backfillSwitch die core => Sys2Proof.Machine.execBackfillSwitch die core s
  | .backfillRunIdle die core => Sys2Proof.Machine.execBackfillRunIdle die core s
  | .foregroundReturn die core => Sys2Proof.Machine.execForegroundReturn die core s
  | .streamFault m cause => Sys2Proof.Machine.execStreamFault m cause s
  | .streamFaultRecord ctx => Sys2Proof.Machine.execStreamFaultRecord ctx s
  | .matLds m w => Sys2Proof.Machine.execMatLds m w s
  | .underpaintingReady m => Sys2Proof.Machine.execUnderpaintingReady m s
  | .matSwp m w => Sys2Proof.Machine.execMatSwp m w s
  | .matStr m w => Sys2Proof.Machine.execMatStr m w s
  | .matDrn m w x => Sys2Proof.Machine.execMatDrn m w x s
  | .matSlotRelease m w => Sys2Proof.Machine.execMatSlotRelease m w s
  | .matSlotPersist m w => Sys2Proof.Machine.execMatSlotPersist m w s
  | .matSlotUnpersist m w => Sys2Proof.Machine.execMatSlotUnpersist m w s
  | .vecAdd m w x => Sys2Proof.Machine.execVecAdd m w x s
  | .vecSub m w x => Sys2Proof.Machine.execVecSub m w x s
  | .vecMul m w x => Sys2Proof.Machine.execVecMul m w x s
  | .vecFma m w x => Sys2Proof.Machine.execVecFma m w x s
  | .vecMin m w x => Sys2Proof.Machine.execVecMin m w x s
  | .vecMax m w x => Sys2Proof.Machine.execVecMax m w x s
  | .vecAbs m w x => Sys2Proof.Machine.execVecAbs m w x s
  | .vecNeg m w x => Sys2Proof.Machine.execVecNeg m w x s
  | .vecRcp m w x => Sys2Proof.Machine.execVecRcp m w x s
  | .vecRsq m w x => Sys2Proof.Machine.execVecRsq m w x s
  | .vecExp m w x => Sys2Proof.Machine.execVecExp m w x s
  | .vecLog m w x => Sys2Proof.Machine.execVecLog m w x s
  | .vecTanh m w x => Sys2Proof.Machine.execVecTanh m w x s
  | .vecSel m w x => Sys2Proof.Machine.execVecSel m w x s
  | .vecCmp m w x => Sys2Proof.Machine.execVecCmp m w x s
  | .vecCvt m w x => Sys2Proof.Machine.execVecCvt m w x s
  | .vecExpand m w x => Sys2Proof.Machine.execVecExpand m w x s
  | .vecNorm m w x => Sys2Proof.Machine.execVecNorm m w x s
  | .vecMop m w => Sys2Proof.Machine.execVecMop m w s
  | .redRdc m w => Sys2Proof.Machine.execRedRdc m w s
  | .redAdd m w => Sys2Proof.Machine.execRedAdd m w s
  | .redArm m w x => Sys2Proof.Machine.execRedArm m w x s
  | .redPush m w => Sys2Proof.Machine.execRedPush m w s
  | .redCls m w => Sys2Proof.Machine.execRedCls m w s
  | .tileArrival a => Sys2Proof.Machine.execTileArrival a s
  | .moveTile m w => Sys2Proof.Machine.execMoveTile m w s
  | .moveGather m w => Sys2Proof.Machine.execMoveGather m w s
  | .moveAfn m w => Sys2Proof.Machine.execMoveAfn m w s
  | .moveAfnRelease m w => Sys2Proof.Machine.execMoveAfnRelease m w s
  | .afnDeadlineExpiry m => Sys2Proof.Machine.execAfnDeadlineExpiry m s
  | .moveQsend m w => Sys2Proof.Machine.execMoveQsend m w s
  | .moveQpop m w => Sys2Proof.Machine.execMoveQpop m w s
  | .sqFrameArrival die q f => Sys2Proof.Machine.execSqFrameArrival die q f s
  | .sqCreditReturn die q => Sys2Proof.Machine.execSqCreditReturn die q s
  | .sqCreditArrival die q n => Sys2Proof.Machine.execSqCreditArrival die q n s
  | .create src obj => Sys2Proof.Machine.execCreate src obj s
  | .destroy src obj => Sys2Proof.Machine.execDestroy src obj s
  | .promote src part obj => Sys2Proof.Machine.execPromote src part obj s
  | .evict src part obj => Sys2Proof.Machine.execEvict src part obj s
  | .reclaim src obj => Sys2Proof.Machine.execReclaim src obj s
  | .charge src part ddr => Sys2Proof.Machine.execCharge src part ddr s
  | .credit src part ddr => Sys2Proof.Machine.execCredit src part ddr s
  | .sqopen src qend peerSlots => Sys2Proof.Machine.execSqopen src qend peerSlots s
  | .sqclose src qend => Sys2Proof.Machine.execSqclose src qend s
  | .residencyCopyComplete obj => Sys2Proof.Machine.execResidencyCopyComplete obj s
  | .writebackComplete obj => Sys2Proof.Machine.execWritebackComplete obj s
  | .xferCopy m w x => Sys2Proof.Machine.execXferCopy m w x s
  | .xferCopyi m w pl => Sys2Proof.Machine.execXferCopyi m w pl s
  | .xferGesso m w x => Sys2Proof.Machine.execXferGesso m w x s
  | .xferPlacePromote m w => Sys2Proof.Machine.execXferPlacePromote m w s
  | .xferPlaceEvict m w => Sys2Proof.Machine.execXferPlaceEvict m w s
  | .copyComplete die eng => Sys2Proof.Machine.execCopyComplete die eng s
  | .memoryLineRead pa lines flips => Sys2Proof.Machine.execMemoryLineRead pa lines flips s
  | .memoryFrameRead pa flips => Sys2Proof.Machine.execMemoryFrameRead pa flips s
  | .wholeFrameWrite pa f => Sys2Proof.Machine.execWholeFrameWrite pa f s
  | .subFrameWrite pa bytes => Sys2Proof.Machine.execSubFrameWrite pa bytes s
  | .mergeWindowExpiry ctl frame => Sys2Proof.Machine.execMergeWindowExpiry ctl frame s
  | .bucketLeak => Sys2Proof.Machine.execBucketLeak s
  | .eccBucketCtrlWrite src v => Sys2Proof.Machine.execEccBucketCtrlWrite src v s
  | .scrubFrame flips => Sys2Proof.Machine.execScrubFrame flips s
  | .scrubSram e => Sys2Proof.Machine.execScrubSram e s
  | .updProg m w => Sys2Proof.Machine.execUpdProg m w s
  | .updRun m w x => Sys2Proof.Machine.execUpdRun m w x s
  | .runCommit m => Sys2Proof.Machine.execRunCommit m s
  | .updSnap m w x => Sys2Proof.Machine.execUpdSnap m w x s
  | .updUnpin m w => Sys2Proof.Machine.execUpdUnpin m w s
  | .hceNotifyCtlWrite src n v => Sys2Proof.Machine.execHceNotifyCtlWrite src n v s
  | .drain src => Sys2Proof.Machine.execDrain src s
  | .restart src => Sys2Proof.Machine.execRestart src s
  | .enable src => Sys2Proof.Machine.execEnable src s
  | .drainComplete ns => Sys2Proof.Machine.execDrainComplete ns s
  | .sbiSystemReset k => Sys2Proof.Machine.execSbiSystemReset k s
  | .pcieLinkDown port => Sys2Proof.Machine.execPcieLinkDown port s
  | .fabLaneCfgWrite src n v => Sys2Proof.Machine.execFabLaneCfgWrite src n v s
  | .laneNegDone n peerRates => Sys2Proof.Machine.execLaneNegDone n peerRates s
  | .laneTrainDone n => Sys2Proof.Machine.execLaneTrainDone n s
  | .laneAlignDone n => Sys2Proof.Machine.execLaneAlignDone n s
  | .laneQuickDone n => Sys2Proof.Machine.execLaneQuickDone n s
  | .laneStateTimeout n => Sys2Proof.Machine.execLaneStateTimeout n s
  | .holdExpiry n => Sys2Proof.Machine.execHoldExpiry n s
  | .helloSend n => Sys2Proof.Machine.execHelloSend n s
  | .helloReceive n h => Sys2Proof.Machine.execHelloReceive n h s
  | .helloMissExpiry n => Sys2Proof.Machine.execHelloMissExpiry n s
  | .lanePcsLoss n aligned => Sys2Proof.Machine.execLanePcsLoss n aligned s
  | .frameReceive n f => Sys2Proof.Machine.execFrameReceive n f s
  | .pauseExpiry n prio => Sys2Proof.Machine.execPauseExpiry n prio s
  | .pfcRefresh n prio => Sys2Proof.Machine.execPfcRefresh n prio s
  | .pfcXonSend n prio => Sys2Proof.Machine.execPfcXonSend n prio s
  | .pfcWatchdogExpiry n prio => Sys2Proof.Machine.execPfcWatchdogExpiry n prio s
  | .frameTransmit n => Sys2Proof.Machine.execFrameTransmit n s
  | .fabTxrIdxWrite src v => Sys2Proof.Machine.execFabTxrIdxWrite src v s
  | .fabRingCfgWrite src tx v => Sys2Proof.Machine.execFabRingCfgWrite src tx v s
  | .cragilWrite p => Sys2Proof.Machine.execCragilWrite p s
  | .cragilWriteSignal p => Sys2Proof.Machine.execCragilWriteSignal p s
  | .cragilReadRequest p => Sys2Proof.Machine.execCragilReadRequest p s
  | .cragilReadResponse p => Sys2Proof.Machine.execCragilReadResponse p s
  | .cragilAtomic p => Sys2Proof.Machine.execCragilAtomic p s
  | .cragilAtomicResponse p => Sys2Proof.Machine.execCragilAtomicResponse p s
  | .cragilTileAdd p => Sys2Proof.Machine.execCragilTileAdd p s
  | .cragilAck p => Sys2Proof.Machine.execCragilAck p s
  | .cragilNak p => Sys2Proof.Machine.execCragilNak p s
  | .cragilRnr p => Sys2Proof.Machine.execCragilRnr p s
  | .rnrBackoffExpiry qp => Sys2Proof.Machine.execRnrBackoffExpiry qp s
  | .transitForward die p => Sys2Proof.Machine.execTransitForward die p s
  | .contextFetchComplete qp => Sys2Proof.Machine.execContextFetchComplete qp s
  | .ackTimerExpiry qp => Sys2Proof.Machine.execAckTimerExpiry qp s
  | .rtoExpiry qp => Sys2Proof.Machine.execRtoExpiry qp s
  | .qpOpen src qp => Sys2Proof.Machine.execQpOpen src qp s
  | .qpClose src qp => Sys2Proof.Machine.execQpClose src qp s
  | .qpErrorCmd src qp => Sys2Proof.Machine.execQpErrorCmd src qp s
  | .winLoad src part win => Sys2Proof.Machine.execWinLoad src part win s
  | .winRevoke src part win => Sys2Proof.Machine.execWinRevoke src part win s
  | .revokeComplete => Sys2Proof.Machine.execRevokeComplete s
  | .xptPkeyWrite src part v => Sys2Proof.Machine.execXptPkeyWrite src part v s
  | .xferRwrite m w x => Sys2Proof.Machine.execXferRwrite m w x s
  | .xferRwritei m w x pl => Sys2Proof.Machine.execXferRwritei m w x pl s
  | .xferRread m w x => Sys2Proof.Machine.execXferRread m w x s
  | .xferRatom m w x => Sys2Proof.Machine.execXferRatom m w x s
  | .xferRtadd m w x => Sys2Proof.Machine.execXferRtadd m w x s
  | .apertureLoad hart addr size => Sys2Proof.Machine.execApertureLoad hart addr size s
  | .apertureStore hart addr data => Sys2Proof.Machine.execApertureStore hart addr data s
  | .apertureAmo hart addr op size v => Sys2Proof.Machine.execApertureAmo hart addr op size v s
  | .xferColl m w => Sys2Proof.Machine.execXferColl m w s
  | .collStepComplete id => Sys2Proof.Machine.execCollStepComplete id s
  | .collDeadlineExpiry id => Sys2Proof.Machine.execCollDeadlineExpiry id s
  | .collGraceExpiry id => Sys2Proof.Machine.execCollGraceExpiry id s
  | .colGrant p => Sys2Proof.Machine.execColGrant p s
  | .xferPerm m w => Sys2Proof.Machine.execXferPerm m w s
  | .colPdone p => Sys2Proof.Machine.execColPdone p s
  | .colMirrorWrite p => Sys2Proof.Machine.execColMirrorWrite p s
  | .colMirrorAck p => Sys2Proof.Machine.execColMirrorAck p s
  | .mirrorResend src => Sys2Proof.Machine.execMirrorResend src s
  | .colMirrorEnWrite src en => Sys2Proof.Machine.execColMirrorEnWrite src en s
  | .colJobDisable src j => Sys2Proof.Machine.execColJobDisable src j s
  | .lossHoldExpiry pkg => Sys2Proof.Machine.execLossHoldExpiry pkg s
  | .colLossNotice p => Sys2Proof.Machine.execColLossNotice p s
  | .prtEnable src part => Sys2Proof.Machine.execPrtEnable src part s
  | .prtTeardown src part => Sys2Proof.Machine.execPrtTeardown src part s
  | .prtInval src part => Sys2Proof.Machine.execPrtInval src part s
  | .secPolicyWrite ch v => Sys2Proof.Machine.execSecPolicyWrite ch v s
  | .setOwnerKey ch key cur sig => Sys2Proof.Machine.execSetOwnerKey ch key cur sig s
  | .pldmPlatformRequest ch r => Sys2Proof.Machine.execPldmPlatformRequest ch r s
  | .pldmFirmwareUpdate ch img => Sys2Proof.Machine.execPldmFirmwareUpdate ch img s
  | .firmwareActivate ch => Sys2Proof.Machine.execFirmwareActivate ch s
  | .tlsConnect version suite scheme chain => Sys2Proof.Machine.execTlsConnect version suite scheme chain s
  | .getVersion ch => Sys2Proof.Machine.execGetVersion ch s
  | .getCapabilities ch => Sys2Proof.Machine.execGetCapabilities ch s
  | .negotiateAlgorithms ch asym hash => Sys2Proof.Machine.execNegotiateAlgorithms ch asym hash s
  | .getDigests ch => Sys2Proof.Machine.execGetDigests ch s
  | .getCertificate ch slot offset len => Sys2Proof.Machine.execGetCertificate ch slot offset len s
  | .challenge ch slot nonce => Sys2Proof.Machine.execChallenge ch slot nonce s
  | .getMeasurements ch index sign nonce => Sys2Proof.Machine.execGetMeasurements ch index sign nonce s
  | .debugUnlock ch t => Sys2Proof.Machine.execDebugUnlock ch t s
  | .getIdentity ch => Sys2Proof.Machine.execGetIdentity ch s
  | .getStartReport ch eid byte0 => Sys2Proof.Machine.execGetStartReport ch eid byte0 s
  | .coreMigrate die p why => Sys2Proof.Machine.execCoreMigrate die p why s
  | .migrationDrainTimeout die p => Sys2Proof.Machine.execMigrationDrainTimeout die p s
  | .coreFaultDetect die p source => Sys2Proof.Machine.execCoreFaultDetect die p source s
  | .dieFault die struct addr => Sys2Proof.Machine.execDieFault die struct addr s
  | .watchdogExpiry die cc => Sys2Proof.Machine.execWatchdogExpiry die cc s
  | .pkgEvtCfgWrite src v => Sys2Proof.Machine.execPkgEvtCfgWrite src v s
  | .mainGood => Sys2Proof.Machine.execMainGood s
  | .mainLoss lowest => Sys2Proof.Machine.execMainLoss lowest s
  | .mainOvervoltage vin => Sys2Proof.Machine.execMainOvervoltage vin s
  | .mainTrip vin => Sys2Proof.Machine.execMainTrip vin s
  | .auxRise badA badB => Sys2Proof.Machine.execAuxRise badA badB s
  | .auxLoss => Sys2Proof.Machine.execAuxLoss s
  | .powerSample watts over100ms over1ms => Sys2Proof.Machine.execPowerSample watts over100ms over1ms s
  | .thermalThrottle sensors => Sys2Proof.Machine.execThermalThrottle sensors s
  | .thermalTrip sensor quarters => Sys2Proof.Machine.execThermalTrip sensor quarters s
  | .clusterClockStop die cl => Sys2Proof.Machine.execClusterClockStop die cl s
  | .clusterClockStart die cl => Sys2Proof.Machine.execClusterClockStart die cl s
  | .clockDroop die cl cycles => Sys2Proof.Machine.execClockDroop die cl cycles s
  | .aonTimeStepWrite src v => Sys2Proof.Machine.execAonTimeStepWrite src v s
  | .timeLock src => Sys2Proof.Machine.execTimeLock src s
  | .qualTimeout => Sys2Proof.Machine.execQualTimeout s
  | .ppsEdge => Sys2Proof.Machine.execPpsEdge s
  | .crystalTick => Sys2Proof.Machine.execCrystalTick s
  | .idleEnter => Sys2Proof.Machine.execIdleEnter s
  | .idleExit why => Sys2Proof.Machine.execIdleExit why s
  | .doze src => Sys2Proof.Machine.execDoze src s
  | .dozeExit why us badSave => Sys2Proof.Machine.execDozeExit why us badSave s
  | .sleep src => Sys2Proof.Machine.execSleep src s
  | .sleepExit why => Sys2Proof.Machine.execSleepExit why s
  | .wake src => Sys2Proof.Machine.execWake src s
  | .wakeNAssert => Sys2Proof.Machine.execWakeNAssert s
  | .alarmExpiry => Sys2Proof.Machine.execAlarmExpiry s
  | .warmReset src key => Sys2Proof.Machine.execWarmReset src key s
  | .factoryRestore src key => Sys2Proof.Machine.execFactoryRestore src key s
  | .resetAssert => Sys2Proof.Machine.execResetAssert s
  | .resetRelease => Sys2Proof.Machine.execResetRelease s
  | .persistentNorWrite => Sys2Proof.Machine.execPersistentNorWrite s
  | .stageRom bad us => Sys2Proof.Machine.execStageRom bad us s
  | .stageFirmware ok us => Sys2Proof.Machine.execStageFirmware ok us s
  | .stagePower r us => Sys2Proof.Machine.execStagePower r us s
  | .stageUcie => Sys2Proof.Machine.execStageUcie s
  | .stageHbm => Sys2Proof.Machine.execStageHbm s
  | .stageDdr5 spd => Sys2Proof.Machine.execStageDdr5 spd s
  | .stageCompute us => Sys2Proof.Machine.execStageCompute us s
  | .stageFabric => Sys2Proof.Machine.execStageFabric s
  | .stageHost ok us => Sys2Proof.Machine.execStageHost ok us s
  | .unitTrainingDone stage u pass cause => Sys2Proof.Machine.execUnitTrainingDone stage u pass cause s
  | .stageTimeout stage => Sys2Proof.Machine.execStageTimeout stage s
  | .startClear src => Sys2Proof.Machine.execStartClear src s
  | .test src v => Sys2Proof.Machine.execTest src v s
  | .calibrate src v => Sys2Proof.Machine.execCalibrate src v s
  | .testAbort src => Sys2Proof.Machine.execTestAbort src s
  | .testComplete pass sub us detail => Sys2Proof.Machine.execTestComplete pass sub us detail s
  | .autoCalibration kind u => Sys2Proof.Machine.execAutoCalibration kind u s
  | .counterSample => Sys2Proof.Machine.execCounterSample s
  | .cntCmdSample src => Sys2Proof.Machine.execCntCmdSample src s
  | .traceDrain die => Sys2Proof.Machine.execTraceDrain die s
  | .hangTimeout m => Sys2Proof.Machine.execHangTimeout m s
  | .wfgDump src => Sys2Proof.Machine.execWfgDump src s
  | .wfgWritten => Sys2Proof.Machine.execWfgWritten s
  | .pcieDeviceRequest r => Sys2Proof.Machine.execPcieDeviceRequest r s
  | .overvoltageEnd => Sys2Proof.Machine.execOvervoltageEnd s
  | .sensorsBelowResetLimit => Sys2Proof.Machine.execSensorsBelowResetLimit s
  | .jtagInstruction ir => Sys2Proof.Machine.execJtagInstruction ir s
end Sys2Proof.Machine
end

