-- ==== Sys2Proof/Machine/Tick.lean ====
section
/-! DEFINITION. The time base's tick, which is what the package does when no command waits (15_power_time_reset.md R679, R682). -/
namespace Sys2Proof.Machine

/-- One nanosecond of the time-base clock, and the steps that the package takes of its own accord (log entry 2); without the
auxiliary input nothing happens. -/
def tick (b : Blk) : Blk := if b.pwr.aux then settle (housekeeping.exec' (b.elapse 1)) else b

end Sys2Proof.Machine
end

