-- ==== Sys2Proof/Safety.lean ====
section
/-! DEFINITION. The terms that statements about runs use: the state a command leaves, what an issued Plynax instruction is, and
which registers posting an event may write. -/
namespace Sys2Proof.Machine

/-- The state that a command leaves whose effect on the package is `b`: the events it raised have been posted (R660). -/
def State.after (s : State) (b : Blk) : State := { s with blk := settle b }

/-- R660: every event that has been raised has been posted. -/
def State.Posted (s : State) : Prop := s.blk.dbg.evq = []

/-- The canonical form of the package's memory. -/
abbrev Blk.MemOk (b : Blk) : Prop := Memory.wf b.mem.cells

/-- The package with an event raised and not yet posted. -/
def Blk.withEv (b : Blk) (e : Ev) : Blk := { b with dbg := { b.dbg with evq := b.dbg.evq ++ [e] } }

/-- R694: a register write by `src` at `off` is performed at once, not held by Doze. -/
def Blk.takes (b : Blk) (src : Src) (off : Nat) : Bool := !(decide (src = .host) && b.dozing && heldOff off)

/-- The package in which a slot has been changed. -/
def Blk.mapSlot (b : Blk) (k : Nat) (f : Slot → Slot) : Blk := b.setSlot k (f (b.slot k))

/-- The registers that posting events may write (R366, R368, R377, R661 to R665, R754): the event ring's index, its dropped and
faulty counts, the retained fault log and its index, the error status, counts and last-error records of memory, the merge
high-water mark, the armed injection, and the count of lost trace records. -/
def postReg (off : Nat) : Bool :=
  decide (off = Reg.pkgEvtIdx ∨ off = Reg.pkgFltSts ∨ off = Reg.pkgFlogIdx ∨ off = Reg.eccSts ∨ off = Reg.memMerge ∨ off = Reg.eccInject ∨
    off = Reg.dbgTrcSts) ||
  decide (Reg.pkgFlog 0 ≤ off ∧ off ≤ Reg.pkgFlog 4095) ||
  decide (Reg.eccCnt 0 ≤ off ∧ off ≤ Reg.eccCnt 31) || decide (Reg.eccLast 0 ≤ off ∧ off ≤ Reg.eccLast 31)

/-- The registers that have no behaviour of their own on a write (R16): all but those that commands of the opcode table name, and
the few whose writes the field tables restrict. -/
def plainReg (off : Nat) : Bool :=
  let d := off / 0x1000000 - 1
  if 0x1000000 ≤ off ∧ off < 0x3000000 then
    (regIndex (Reg.coreSyncOwn d 0) 8 8192 off).isNone && (regIndex (Reg.coreBfCtrl d 0) 0x10000 20 off).isNone &&
      decide (off ≠ Reg.coreCtxCmd d)
  else if 0x4000000 ≤ off ∧ off < 0x5000000 then
    (regIndex (Reg.fabLaneCfg 0) 8 49 off).isNone && (regIndex (Reg.xptPkey 0) 8 1024 off).isNone &&
      (regIndex (Reg.colJob 0) 8 16 off).isNone &&
      !([Reg.fabMacBase, Reg.fabTxrIdx, Reg.fabTxrCfg, Reg.fabRxrCfg, Reg.xptQpCmd, Reg.xptWinCmd, Reg.colMirror].contains off)
  else
    (regIndex (Reg.hceNotifyCtl 0) 16 256 off).isNone && (regIndex (Reg.prtPart 0) 8 1024 off).isNone &&
      (regIndex (Reg.prtDoorbell 0) 0x1000 1024 off).isNone && (regIndex (Reg.prtSignal 0) 0x1000 1024 off).isNone &&
      !([Reg.memPlcCmd, Reg.eccBucketCtrl, Reg.hceRestart, Reg.prtCmd, Reg.pkgEvtCfg, Reg.pkgStartCtrl, Reg.pkgTestCmd, Reg.aonTimeStep,
        Reg.aonTimeCtrl, Reg.cntCmd, Reg.dbgWfgCtrl, Reg.pkgNumber, Reg.secPolicy, Reg.aonPwrCmd].contains off)

/-- The byte that a reader of physical address `a` sees: a host-die cache that holds the line modified comes first, then an open
merge entry (R356, R360), then memory; a frame that has not been written since the last change of the seal reads 0 (R353). -/
def Blk.byteAt (b : Blk) (a : Nat) : Byte :=
  match b.hostLine (a / 64 * 64) with
  | some l => nth l 0 (a % 64)
  | none =>
    match (b.entry (a / 8192)).bind (fun e => (e.bytes.find? (fun c => decide (c.1 = a % 8192))).map (·.2)) with
    | some x => x
    | none =>
      if ((b.resolve (a / 8192 * 8192)).2).isTier && b.unwritten (a / 8192) then 0 else nth (memRead b.mem.cells a 1) 0 0

/-- No storage error waits in any frame, and no injection is armed (R343, R377). -/
def Blk.Clean (b : Blk) : Prop := (∀ f, (b.fmeta f).errs = []) ∧ bit (b.reg Reg.eccInject) 63 = false

/-- The form of the buffers before memory: whole lines, each once, in the host-die caches; one open merge entry a frame
of a memory tier, with rising offsets. -/
def Blk.BuffersOk (b : Blk) : Prop :=
  (b.mem.hostDirty.map (·.1)).Nodup ∧ (∀ l ∈ b.mem.hostDirty, l.1 % 64 = 0 ∧ l.2.length = 64) ∧
  (b.mem.merge.map (·.frame)).Nodup ∧
  (∀ e ∈ b.mem.merge, ((b.resolve (e.frame * 8192)).2).isTier = true ∧ e.bytes.Pairwise (fun x y => x.1 < y.1) ∧
    ∀ c ∈ e.bytes, c.1 < 8192)

/-- The access that the host cores see answered: its bytes, an access fault, poison. -/
def Blk.answer (b : Blk) (bs : List Byte) (fault poison : Bool) : Blk :=
  { b with host := { b.host with resp := bs, accessFault := fault, busPoison := poison } }

/-- A Plynax command: the member, the first word, the class and opcode, whether the word is of this row of its opcode, and
whether the encoding is one that the spec defines (R143). -/
structure Issue where
  m : Member
  w : Word
  cls : Nat
  op : Nat
  row : Bool := true
  ok : Bool

/-- The Plynax rows, with the encoding each defines: field masks, extension word and payload length (R139 to R143). -/
def plynax : Instr → Option Issue
  | .seqNop m w => some ⟨m, w, 0, 0, true, wordOk w false (0, 0) && rsvdOk w []⟩
  | .seqEnd m w => some ⟨m, w, 0, 1, true, wordOk w false (0, 0) && rsvdOk w []⟩
  | .seqLoop m w => some ⟨m, w, 0, 2, true,
      wordOk w false (0, 0) && rsvdOk w [(47, 45), (44, 44), (43, 20), (15, 0)] && (!bit w 44 || decide (bits w 43 25 = 0))⟩
  | .seqTag m w => some ⟨m, w, 0, 3, true, wordOk w false (0, 0) && rsvdOk w [(31, 16), (15, 0)]⟩
  | .seqFence m w => some ⟨m, w, 0, 4, true, wordOk w false (0, 0) && rsvdOk w [(5, 0)]⟩
  | .seqSeed m w _ => some ⟨m, w, 0, 5, true, wordOk w true (0, 0) && rsvdOk w []⟩
  | .seqScalar m w _ => some ⟨m, w, 0, 6, true, scalarOk w⟩
  | .seqMask m w => some ⟨m, w, 0, 7, true, wordOk w false (0, 0) && rsvdOk w [(47, 45), (44, 44), (40, 32)] &&
      decide (bits w 47 45 ≠ 0) && (!bit w 44 || decide (bits w 40 37 = 0))⟩
  | .syncWait m w _ => some ⟨m, w, 1, 0, true, syncWordOk w⟩
  | .syncSignal m w _ => some ⟨m, w, 1, 1, true, syncWordOk w⟩
  | .syncArrive m w _ => some ⟨m, w, 1, 2, true, syncWordOk w⟩
  | .syncSet m w _ => some ⟨m, w, 1, 3, true, syncWordOk w⟩
  | .syncSignalR m w _ => some ⟨m, w, 1, 5, true, syncWordOk w⟩
  | .syncArriveR m w _ => some ⟨m, w, 1, 6, true, syncWordOk w⟩
  | .moveTile m w => some ⟨m, w, 2, 0, true, wordOk w false (0, 0) &&
      rsvdOk w [(47, 44), (43, 40), (39, 37), (36, 36), (35, 35), (34, 29), (28, 23), (22, 16)]⟩
  | .moveGather m w => some ⟨m, w, 2, 1, true, wordOk w false (0, 0) && rsvdOk w [(47, 44), (34, 29), (28, 23), (9, 5), (4, 0)]⟩
  | .moveAfn m w => some ⟨m, w, 2, 2, !bit w 46, afnOk w⟩
  | .moveAfnRelease m w => some ⟨m, w, 2, 2, bit w 46, afnOk w⟩
  | .moveQsend m w => some ⟨m, w, 2, 3, true, wordOk w false (0, 0) && rsvdOk w [(47, 42), (28, 23), (22, 16)]⟩
  | .moveQpop m w => some ⟨m, w, 2, 4, true, wordOk w false (0, 0) && rsvdOk w [(47, 42), (34, 29), (22, 16)]⟩
  | .matLds m w => some ⟨m, w, 3, 0, true, wordOk w false (0, 0) &&
      rsvdOk w [(47, 44), (43, 40), (39, 37), (36, 36), (35, 35), (34, 34), (33, 32), (4, 0)]⟩
  | .matSwp m w => some ⟨m, w, 3, 1, true, wordOk w false (0, 0) && rsvdOk w []⟩
  | .matStr m w => some ⟨m, w, 3, 2, true, wordOk w false (0, 0) &&
      rsvdOk w [(47, 44), (43, 40), (39, 37), (36, 36), (35, 35), (34, 31), (9, 5), (4, 0)]⟩
  | .matDrn m w x => some ⟨m, w, 3, 3, true, wordOk w true (0, 0) && rsvdOk w [(47, 19), (9, 0)] && rsvdExt x [(14, 0)]⟩
  | .matSlotRelease m w => some ⟨m, w, 3, 4, matSlotRow 0 w, matSlotOk w⟩
  | .matSlotPersist m w => some ⟨m, w, 3, 4, matSlotRow 1 w, matSlotOk w⟩
  | .matSlotUnpersist m w => some ⟨m, w, 3, 4, matSlotRow 2 w, matSlotOk w⟩
  | .vecAdd m w _ => some ⟨m, w, 4, 0, true, vecOk w⟩
  | .vecSub m w _ => some ⟨m, w, 4, 1, true, vecOk w⟩
  | .vecMul m w _ => some ⟨m, w, 4, 2, true, vecOk w⟩
  | .vecFma m w _ => some ⟨m, w, 4, 3, true, vecOk w⟩
  | .vecMin m w _ => some ⟨m, w, 4, 4, true, vecOk w⟩
  | .vecMax m w _ => some ⟨m, w, 4, 5, true, vecOk w⟩
  | .vecAbs m w _ => some ⟨m, w, 4, 6, true, vecOk w⟩
  | .vecNeg m w _ => some ⟨m, w, 4, 7, true, vecOk w⟩
  | .vecRcp m w _ => some ⟨m, w, 4, 8, true, vecOk w⟩
  | .vecRsq m w _ => some ⟨m, w, 4, 9, true, vecOk w⟩
  | .vecExp m w _ => some ⟨m, w, 4, 0xA, true, vecOk w⟩
  | .vecLog m w _ => some ⟨m, w, 4, 0xB, true, vecOk w⟩
  | .vecTanh m w _ => some ⟨m, w, 4, 0xC, true, vecOk w⟩
  | .vecSel m w _ => some ⟨m, w, 4, 0xD, true, vecOk w⟩
  | .vecCmp m w _ => some ⟨m, w, 4, 0xE, true, vecOk w⟩
  | .vecCvt m w _ => some ⟨m, w, 4, 0xF, true, vecOk w⟩
  | .vecExpand m w _ => some ⟨m, w, 4, 0x10, true, vecOk w⟩
  | .vecNorm m w _ => some ⟨m, w, 4, 0x11, true, vecOk w⟩
  | .vecMop m w => some ⟨m, w, 4, 0x12, true, mopOk w⟩
  | .redRdc m w => some ⟨m, w, 5, 0, true, wordOk w false (0, 0) &&
      rsvdOk w [(47, 44), (43, 42), (41, 39), (38, 38), (37, 35), (34, 34), (33, 28), (4, 0)]⟩
  | .redAdd m w => some ⟨m, w, 5, 1, true, wordOk w false (0, 0) && rsvdOk w [(47, 44), (43, 40), (33, 28), (27, 22)]⟩
  | .redArm m w x => some ⟨m, w, 5, 2, true, wordOk w true (0, 0) &&
      rsvdOk w [(47, 45), (44, 41), (40, 40), (39, 34), (31, 16), (9, 5), (4, 0)] && rsvdExt x [(63, 50), (49, 18), (9, 0)]⟩
  | .redPush m w => some ⟨m, w, 5, 3, true, wordOk w false (0, 0) &&
      rsvdOk w [(47, 44), (39, 34), (33, 28), (27, 20), (14, 10), (9, 5)]⟩
  | .redCls m w => some ⟨m, w, 5, 4, true, wordOk w false (0, 0) && rsvdOk w [(47, 45)]⟩
  | .xferCopy m w x => some ⟨m, w, 6, 0, true, wordOk w true (0, 0) && copyExtOk x &&
      rsvdOk w [(47, 46), (45, 45), (44, 44), (43, 43), (42, 42), (41, 41), (14, 10), (9, 5), (4, 0)]⟩
  | .xferCopyi m w _ => some ⟨m, w, 6, 1, true, wordOk w false (1, 24) && rsvdOk w [(47, 46), (45, 45), (42, 42), (12, 5), (4, 0)]⟩
  | .xferGesso m w x => some ⟨m, w, 6, 2, true, wordOk w true (0, 0) && copyExtOk x &&
      rsvdOk w [(47, 46), (45, 45), (44, 41), (40, 40), (39, 39), (14, 10), (4, 0)]⟩
  | .xferPlacePromote m w => some ⟨m, w, 6, 3, decide (bits w 47 45 ≠ 1), placeOk w && decide (bits w 47 45 = 0)⟩
  | .xferPlaceEvict m w => some ⟨m, w, 6, 3, decide (bits w 47 45 = 1), placeOk w⟩
  | .xferRwrite m w _ => some ⟨m, w, 6, 8, true, wordOk w true (0, 0) &&
      rsvdOk w [(47, 47), (46, 46), (45, 45), (44, 44), (43, 43), (19, 15), (14, 10), (9, 5), (4, 0)]⟩
  | .xferRwritei m w _ _ => some ⟨m, w, 6, 9, true, wordOk w true (1, 24) &&
      rsvdOk w [(46, 46), (45, 45), (44, 44), (43, 43), (40, 33), (19, 15), (4, 0)]⟩
  | .xferRread m w _ => some ⟨m, w, 6, 0xA, true, wordOk w true (0, 0) &&
      rsvdOk w [(47, 47), (46, 46), (45, 45), (44, 44), (19, 15), (14, 10), (9, 5), (4, 0)]⟩
  | .xferRatom m w _ => some ⟨m, w, 6, 0xB, true, wordOk w true (0, 0) &&
      rsvdOk w [(47, 46), (45, 45), (44, 44), (42, 40), (29, 25), (24, 20), (19, 15), (14, 10), (4, 0)]⟩
  | .xferRtadd m w _ => some ⟨m, w, 6, 0xC, true, wordOk w true (0, 0) &&
      rsvdOk w [(47, 44), (43, 40), (39, 39), (38, 38), (37, 37), (36, 36), (35, 28), (24, 20), (19, 15), (9, 5), (4, 0)]⟩
  | .xferColl m w => some ⟨m, w, 6, 0x10, true, wordOk w false (0, 0) && rsvdOk w [(47, 47), (4, 0)]⟩
  | .xferPerm m w => some ⟨m, w, 6, 0x11, true, wordOk w false (0, 0) && rsvdOk w [(47, 47), (4, 0)]⟩
  | .updProg m w => some ⟨m, w, 7, 0, true, wordOk w false (0, 0) && rsvdOk w [(47, 46), (4, 0)]⟩
  | .updRun m w _ => some ⟨m, w, 7, 1, true, runOk w⟩
  | .updSnap m w _ => some ⟨m, w, 7, 2, true, wordOk w true (0, 0) && rsvdOk w [(47, 44), (43, 43), (9, 5), (4, 0)]⟩
  | .updUnpin m w => some ⟨m, w, 7, 3, true, wordOk w false (0, 0) && rsvdOk w [(9, 5), (4, 0)]⟩
  | _ => none

/-! ### Tile destinations -/

/-- Tile `i` of a destination run can be written: the register exists and can hold the format, or the address is aligned, translated and
near, and `a` is what it resolves to (R225, R229, R230). -/
def Blk.tileDst (b : Blk) (c : Cx) (sp i a : Nat) (f : Fmt) : Prop :=
  match Spec.of sp with
  | .reg n => n + i < 8 ∧ f.inReg = true
  | .mem n =>
    let va := (b.sreg c.key n).toNat + i * 8192
    va % 8192 = 0 ∧ ∃ r, wrAddr c va 8192 b = .ok (a, r) b ∧ b.near c a r = true
  | _ => False

/-- A whole tile written to a tile register, or with a header of the member's to the frame at `a` of a store (R237, R287). -/
def Blk.tilePut (b : Blk) (c : Cx) (sp i a : Nat) (f : Fmt) (t : Tile) : Blk :=
  match Spec.of sp with
  | .reg n => b.mapSlot c.key (fun s => { s with t := s.t.setIfInBounds (n + i) ⟨some f, t.sat, t.empty, t.data⟩ })
  | .mem _ => (b.putBytes a (padTo 8192 t.data)).setFmeta (a / 8192) { hdr := c.header f t.sat t.empty, side := t.side }
  | _ => b

/-- R232, R233, R237: a destination tile under the mask: the selected elements take `codes`; the others are zero under MZ and else
keep what they hold, and a frame of which some are kept keeps its sideband and its poison mark. -/
def Blk.vecPut (b : Blk) (c : Cx) (v : VecF) (i a : Nat) (codes : List Nat) (sat : Bool) (empty : Word) : Blk :=
  let m := (b.slot c.key).mask v.mkf
  if maskedOff m v.mrow v.fmt.k && !v.mz then
    match Spec.of v.d with
    | .reg n =>
      let old := v.fmt.codes ((((b.slot c.key).t.toList[n + i]?).getD {}).data)
      b.tilePut c v.d i a v.fmt ⟨v.fmt.pack (mergeCodes m v.mrow false v.fmt.k codes old), [], sat, empty⟩
    | _ =>
      let old := v.fmt.codes (memRead b.mem.cells a 8192)
      let x := b.fmeta (a / 8192)
      (b.putBytes a (padTo 8192 (v.fmt.pack (mergeCodes m v.mrow false v.fmt.k codes old)))).setFmeta (a / 8192)
        { x with hdr := c.header v.fmt sat empty x.hdr.poison }
  else b.tilePut c v.d i a v.fmt ⟨v.fmt.pack (mergeCodes m v.mrow v.mz v.fmt.k codes []), [], sat, empty⟩

/-- An element-wise VEC row: its word and extension, its opcode, the formats and the number of sources it takes, whether FP32 takes
round to nearest even alone (R239), and what an element becomes from the sources and its draw. -/
structure VecRow where
  m : Member
  w : Word
  x : Word
  op : Nat
  fmts : List Fmt
  nsrc : Nat
  rneOnly : Bool := false
  fn : Fmt → Conv → List Val → Nat → Nat × Nat

/-- An exact value rounded once to the format (R234). -/
def once (g : List Val → Val) (f : Fmt) (cv : Conv) (vs : List Val) (r : Nat) : Nat × Nat := f.convert1 cv r (g vs)

/-- A function whose FP32 result is the nearest value below or above: delivered as it is in FP32, else rounded (R239). -/
def viaF32 (g : Val → Nat × Nat) (f : Fmt) (cv : Conv) (vs : List Val) (r : Nat) : Nat × Nat :=
  if f = .fp32 then g (arg vs 0) else f.convert1 cv r (ofF32 (g (arg vs 0)).1)

/-- The element-wise rows (R234 to R240, R248, R255). -/
def elementwise : Instr → Option VecRow
  | .vecAdd m w x => some ⟨m, w, x, 0, [.fp32, .int32, .bf16, .fp16], 2, false, once (fun v => (arg v 0).add (arg v 1))⟩
  | .vecSub m w x => some ⟨m, w, x, 1, [.fp32, .int32, .bf16, .fp16], 2, false, once (fun v => (arg v 0).add (arg v 1).neg)⟩
  | .vecMul m w x => some ⟨m, w, x, 2, [.fp32, .int32, .bf16, .fp16], 2, false, once (fun v => (arg v 0).mul (arg v 1))⟩
  | .vecFma m w x => some ⟨m, w, x, 3, [.fp32, .bf16, .fp16], 3, false, once (fun v => ((arg v 0).mul (arg v 1)).add (arg v 2))⟩
  | .vecMin m w x => some ⟨m, w, x, 4, [.fp32, .int32, .bf16, .fp16, .e4m3, .e5m2], 2, false, once (fun v =>
      if (arg v 0).isNan || (arg v 1).isNan then .nan else if (arg v 1).lt (arg v 0) then arg v 1 else arg v 0)⟩
  | .vecMax m w x => some ⟨m, w, x, 5, [.fp32, .int32, .bf16, .fp16, .e4m3, .e5m2], 2, false, once (fun v =>
      if (arg v 0).isNan || (arg v 1).isNan then .nan else if (arg v 0).lt (arg v 1) then arg v 1 else arg v 0)⟩
  | .vecAbs m w x => some ⟨m, w, x, 6, [.fp32, .int32, .bf16, .fp16, .e4m3, .e5m2], 1, false, once (fun v => (arg v 0).withSign false)⟩
  | .vecNeg m w x => some ⟨m, w, x, 7, [.fp32, .int32, .bf16, .fp16, .e4m3, .e5m2], 1, false, once (fun v => (arg v 0).neg)⟩
  | .vecRcp m w x => some ⟨m, w, x, 8, [.fp32, .bf16, .fp16], 1, false, fun f cv vs r =>
      f.convert1 cv r (fnRcp (arg vs 0)).1 (fnRcp (arg vs 0)).2⟩
  | .vecRsq m w x => some ⟨m, w, x, 9, [.fp32, .bf16, .fp16], 1, false, fun f cv vs r =>
      f.convert1 cv r (fnRsq (arg vs 0)).1 (fnRsq (arg vs 0)).2⟩
  | .vecExp m w x => some ⟨m, w, x, 0xA, [.fp32, .bf16, .fp16], 1, true, viaF32 fnExp⟩
  | .vecLog m w x => some ⟨m, w, x, 0xB, [.fp32, .bf16, .fp16], 1, true, viaF32 fnLog⟩
  | .vecTanh m w x => some ⟨m, w, x, 0xC, [.fp32, .bf16, .fp16], 1, true, viaF32 fnTanh⟩
  | .vecSel m w x => some ⟨m, w, x, 0xD, [.fp32, .int32, .bf16, .fp16, .e4m3, .e5m2], 3, false, once (fun v =>
      if (arg v 2).isZero then arg v 1 else arg v 0)⟩
  | _ => none

/-! ### Requests of the transport -/

/-- A request packet is the next of its queue pair, whose context is cached and which it matches: R549 checks 1 to 4 and R538; `u` is the
package once the packet has left the place where it waited. -/
def Blk.nextRequest (u : Blk) (p : Packet) (n : Nat) (q : QpSt) : Prop :=
  u.pkgNo = some p.dstPkg.toNat ∧ p.version = 1 ∧ p.dstQp.toNat = n ∧ u.qp n = some q ∧ u.cached n q.die = true ∧ q.matches p = true ∧
  q.err = none ∧ p.psn.toNat = q.epsn ∧ (p.epoch = 0 ∨ q.epoch = 0 ∨ p.epoch.toNat = q.epoch)

/-- What follows when a request has had its effect (R538, R541): the next PSN is expected, what it is answered leaves, it counts toward the
next acknowledgement, and the packets stored behind it are taken. -/
def requestDone (n : Nat) (q : QpSt) (p : Packet) (r : Served) : Act Unit := do
  modQp n (fun q => {
    q with
    epsn := psnAdd q.epsn 1,
    results := match r.result with
      | some v => (q.results ++ [(p.psn.toNat, v)]).drop (q.results.length - 7)
      | none => q.results })
  if r.status ≠ 0 then nak p q.die r.status
  answer r.answers
  applied n p
  drainGo 256 n
  colSettle

/-- The signal that an applied request gives (R558; log entry 29). -/
def requestSignal (p : Packet) : Act Unit :=
  if givesSignal p then giveSignal p.dstPart.toNat (bits p.opnd1 63 50) (word (bits p.opnd1 31 0)) else pure ()

/-! ### Collectives -/

/-- The collective that XFER.COLL begins from its descriptor's words and its job's record (R576 to R582, R589, R590). -/
def Blk.collOf (b : Blk) (c : Cx) (w : Word) (desc : Nat) (ws : List Word) (r : JobRec) : Coll :=
  let g := nth ws (0 : Word)
  let x := bits (g 0) 55 54
  let lost := r.mask x (fun m => decide (m = 2))
  let s := r.mask x (fun m => decide (m = 0))
  let follow := decide (bits (g 0) 31 0 = (bits (g 7) 63 32 + 1) % 2 ^ 32)
  {
    comp := {
      id := b.nextId, slot := c.key, ctx := c.ctx, part := c.part, pc := c.pc, word := c.w, layer := c.layer, oper := c.oper, nofault := bit w 47 },
    die := c.die, desc := desc, qps := r.lineQps x, kind := bits (g 0) 63 60, job := r.j, axis := x, pol := bits (g 0) 53 52,
    order := bit (g 0) 51 && decide (bits (g 0) 63 60 ≠ 2), fmt := (Fmt.ofCode (bits (g 0) 50 47)).getD .fp32,
    sfmt := (Fmt.ofCode (bits (g 0) 46 43)).getD .fp32, land := bits (g 0) 42 40, step := bits (g 0) 31 0, series := bits (g 1) 63 48,
    deadline := bits (g 1) 47 32, ltag := bits (g 1) 31 24, frames := bits (g 1) 9 0 + 1, src := bits (g 2) 41 13 * 8192,
    dst := bits (g 3) 41 13 * 8192, recva := bits (g 4) 41 6 * 64, pbuf := bits (g 5) 41 13 * 8192, obj := bits (g 6) 63 50,
    val := word (bits (g 6) 49 18), len := r.len x, pos := r.pos x, gives := decide (r.mstate x (r.pos x) = 0),
    stage := if bits (g 0) 63 60 = 2 then 1 else 0, s := s, q := if follow then bits (g 7) 31 16 &&& s else 0, lastStep := bits (g 7) 63 32,
    alts := (bitsOf lost 16).flatMap (fun p => match r.alt x p with
      | some a => [(p, a)]
      | none => []),
    lost := lost }

/-- The permute that XFER.PERM begins from its descriptor's words, its table and its job's record (R592, R593). -/
def Blk.permOf (b : Blk) (c : Cx) (w : Word) (desc : Nat) (ws : List Word) (es : List (Word × Word)) (r : JobRec) : PermCmd :=
  let g := nth ws (0 : Word)
  let x := bits (g 0) 55 54
  let pos := r.pos x
  {
    comp := {
      id := b.nextId, slot := c.key, ctx := c.ctx, part := c.part, pc := c.pc, word := c.w, layer := c.layer, oper := c.oper, nofault := bit w 47 },
    die := c.die, desc := desc, qps := r.lineQps x, job := r.j, axis := x, len := r.len x, pos := pos, obj := bits (g 2) 63 50,
    val := word (bits (g 2) 49 18),
    unread := (es.filter (fun e => decide (bits e.1 63 60 = pos))).map (fun e =>
      PermEntry.mk (bits e.1 59 56) (bits e.1 55 42 + 1) (bits e.1 41 13 * 8192) (bits e.2 41 13 * 8192)),
    awaited := (es.filter (fun e => decide (bits e.1 59 56 = pos ∧ bits e.1 63 60 ≠ pos))).flatMap (fun e =>
      (List.range (bits e.1 55 42 + 1)).map (fun i => (r.qp x (bits e.1 63 60), bits e.2 41 13 * 8192 + i * 8192))) }

/-! ### The step of an update -/

/-- The operands of UPD.RUN as its checks find them (R381, R383, R393, R404 to R406): the gradient, statistics, state, working-copy and
factor frames in their places with the stamps of the step or the one before, the landing record and its counts, where Q and
the Near flag go. -/
def Blk.runInputs (b : Blk) (c : Cx) (o : Obj) (u : RunCx) (gacc flag : Option Nat) (ra : Nat) : Prop :=
  let near := decide (o.uplace = 2)
  let k := u.k
  let nf := if u.p.fact then k.eighths else 0
  let record := bits (k.w 0x10) 41 4 * 16
  let prev := (u.s + 2 ^ 32 - 1) % 2 ^ 32
  let hb := k.frame 0x50
  framesAt c (k.frame 0x08) k.gcnt false (gradPlace c.die) b = .ok u.grads b ∧
  framesAt c (k.frame 0x30) nf false (gradPlace c.die) b = .ok u.stats b ∧
  (k.rvalid = true → ∃ h r, rdBytes c record 8 (fun b => b.near c) b = .ok h b ∧
    (bits (wordAt h 0) 41 40 = 1 ∨ bits (wordAt h 0) 41 40 = 2) ∧ rdAddr c record b = .ok (ra, r) b) ∧
  (k.rvalid = false → ra = 0) ∧
  landCounts c k (bits (k.w 0x08) 63 48) k.gcnt b = .ok u.ns b ∧ landCounts c k (bits (k.w 0x30) 63 48) nf b = .ok u.nst b ∧
  (near = true → u.sts = [] ∧ u.works = [] ∧ u.fin = [] ∧ u.fout = []) ∧
  (near = false → stateFrames c k o (u.per * k.tiles) true b = .ok u.sts b ∧
    framesAt c (k.wb u.s) (if k.half then k.tiles / 2 else k.tiles) true Region.isHbm b = .ok u.works b ∧
    framesAt c (k.fb prev) nf false Region.isHbm b = .ok u.fin b ∧ framesAt c (k.fb u.s) nf true Region.isHbm b = .ok u.fout b) ∧
  (∀ y ∈ u.grads ++ u.stats ++ u.sts ++ u.fin, ∀ h, b.peek y.1 y.2 = some h → h.fmt = 0) ∧
  (∀ y ∈ u.sts, ∀ h, b.peek y.1 y.2 = some h → h.stamp.toNat = u.s ∨ h.stamp.toNat = prev) ∧
  (k.gacc = true → ∃ a r, gacc = some a ∧ wrAddr c (bits (k.w 0x40) 41 2 * 4) 4 b = .ok (a, r) b ∧ b.near c a r = true) ∧
  (k.gacc = false → gacc = none) ∧
  (near = true → ∃ a r, flag = some a ∧ wrCheck c hb (16896 * k.tiles + 8) (fun _ _ r => decide (r = .ddr)) b = .ok () b ∧
    wrAddr c (hb + 16896 * k.tiles) 8 b = .ok (a, r) b) ∧
  (near = false → flag = none) ∧
  u.per = (if u.p.lay4 then 8 else 4) ∧ u.needQ = k.gacc

end Sys2Proof.Machine
end

