-- ==== Sys2Proof/Certificates/Slice0/Obligations.lean ====
section
/-! DEFINITION. The statements for the provers.  A completion statement gives, for each row it names, the state that the command
leaves under conditions on the state and the operands alone, as one equation, so that it states the row's result and its frame
together: `s.after b` is `s` with the package `b` once the events that the command raised have been posted, and
`Obligations.PostingFrame` says what posting may touch. -/
open Sys2Proof Sys2Proof.Machine

/-! ### The whole machine -/

/-- The queue is first in, first out: a step takes the front command and runs it with the rest. -/
def Obligations.StepRunsFrontCommand : Prop :=
  ∀ (c : Instr) (rest : List Instr) (b : Blk), step ⟨c :: rest, b⟩ = exec c ⟨rest, b⟩

/-- With no command waiting, one nanosecond of the time base passes (the model's choice, log entry 2), if the auxiliary input is
there; time advances as R679 and R682 say. -/
def Obligations.EmptyQueueTicks : Prop :=
  (∀ b : Blk, b.pwr.aux = false → step ⟨[], b⟩ = .next ⟨[], b⟩) ∧
  (∀ b : Blk, b.pwr.aux = true → step ⟨[], b⟩ = .next ⟨[], settle (housekeeping.exec' (b.elapse 1))⟩) ∧
  (∀ (b : Blk) (n : Nat), (b.elapse n).aon.elapsed = b.aon.elapsed + n) ∧
  (∀ (b : Blk) (n : Nat), b.pwr.on = false → b.elapse n = { b with aon := { b.aon with elapsed := b.aon.elapsed + n } }) ∧
  (∀ (b : Blk) (n : Nat), b.pwr.on = true → b.aon.frac < 2 ^ 40 →
    ((b.elapse n).aon.ns * 2 ^ 40 + (b.elapse n).aon.frac : Int) =
      b.aon.ns * 2 ^ 40 + b.aon.frac + n * (2 ^ 40 + sext (b.fld Reg.aonTimeCtrl 31 0) 32))

/-- No command touches the queue of waiting commands. -/
def Rules.ExecKeepsQueue : Prop :=
  ∀ (i : Instr) (s t : State), exec i s = .next t → t.pending = s.pending

/-- Every command answers a next state from every state, but for a private JTAG instruction after an accepted debug unlock
(R637), which is refused; before one it has no effect. -/
def Rules.OnlyPrivateJtagStops : Prop :=
  (∀ (i : Instr) (s : State), (∃ t, exec i s = .next t) ∨
    (∃ n, i = .jtagInstruction (.priv n) ∧ s.blk.sec.unlocked = true ∧ exec i s = .refused .privateJtag)) ∧
  (∀ s : State, exec (.jtagInstruction .bypass) s = .next s) ∧
  (∀ (n : Nat) (s : State), exec (.jtagInstruction (.boundary n)) s = .next s) ∧
  (∀ (n : Nat) (s : State), s.blk.sec.unlocked = false → exec (.jtagInstruction (.priv n)) s = .next s) ∧
  (∀ (n : Nat) (s : State), s.blk.sec.unlocked = true → exec (.jtagInstruction (.priv n)) s = .refused .privateJtag)

/-- Commands keep the queue, and every one answers a next state but private JTAG instructions after a debug unlock: the parts named here together. -/
def Obligations.CommandsAnswer : Prop :=
  Rules.ExecKeepsQueue ∧ Rules.OnlyPrivateJtagStops

/-- The state after reset: nothing waits, no event is to be posted, memory is canonical and empty, and every register holds its
Reset column (R17) but the six whose value comes from the fuses or the text of the spec (log entry 4). -/
def Obligations.ResetState : Prop :=
  State.reset.pending = [] ∧ State.reset.Posted ∧ State.reset.blk.MemOk ∧
  (∀ a n, memRead State.reset.blk.mem.cells a n = List.replicate n 0) ∧
  (∀ off, off ∉ [Reg.pkgIdent, Reg.pkgCap, Reg.pkgStartCtrl, Reg.aonLost, Reg.memSeal, Reg.secStatus] →
    State.reset.blk.reg off = regReset off) ∧
  State.reset.blk.reg Reg.pkgStartCtrl = 0x10000 ∧ State.reset.blk.reg Reg.aonLost = 0x1000000000000 ∧
  State.reset.blk.reg Reg.memSeal = 1 ∧
  State.reset.blk.pwr.powerFail = true ∧ State.reset.blk.pwr.main = false ∧ State.reset.blk.outst = [] ∧ State.reset.blk.slots = []

/-- R660: no event is lost on its way: from a state in which every event has been posted, every step leaves one. -/
def Obligations.EveryStepPostsItsEvents : Prop :=
  ∀ s t : State, s.Posted → step s = .next t → t.Posted

/-- What posting events may touch: memory with its buffers, the registers of `postReg`, pending interrupts and reservations of the
host cores, and the event and trace records. -/
def Obligations.PostingFrame : Prop :=
  ∀ b : Blk,
    settle b = { b with
      mem := (settle b).mem, regs := (settle b).regs,
      host := { b.host with imsic := (settle b).host.imsic, reserve := (settle b).host.reserve },
      dbg := { b.dbg with
        eventSeq := (settle b).dbg.eventSeq, evq := (settle b).dbg.evq, bmc := (settle b).dbg.bmc,
        trace := (settle b).dbg.trace, gap := (settle b).dbg.gap } } ∧
    (∀ off, postReg off = false → (settle b).reg off = b.reg off)

/-- The commands of the memory controllers and side stores keep the canonical form of memory. -/
def Obligations.MemoryCommandsKeepForm : Prop :=
  ∀ (s t : State), s.blk.MemOk →
    (∀ pa n flips, exec (.memoryLineRead pa n flips) s = .next t → t.blk.MemOk) ∧
    (∀ pa flips, exec (.memoryFrameRead pa flips) s = .next t → t.blk.MemOk) ∧
    (∀ pa f, exec (.wholeFrameWrite pa f) s = .next t → t.blk.MemOk) ∧
    (∀ pa bs, exec (.subFrameWrite pa bs) s = .next t → t.blk.MemOk) ∧
    (∀ c f, exec (.mergeWindowExpiry c f) s = .next t → t.blk.MemOk) ∧
    (∀ flips, exec (.scrubFrame flips) s = .next t → t.blk.MemOk) ∧
    (∀ e, exec (.scrubSram e) s = .next t → t.blk.MemOk) ∧
    (exec .bucketLeak s = .next t → t.blk.MemOk)

/-! ### Plynax: issue -/

/-- R143, R171: a Plynax command whose word is not of its row, or whose member cannot issue it, changes nothing; one with an
encoding that the spec does not define makes its stream fault with cause 0x0A at its fetch index, with its class and opcode. -/
def Rules.UndefinedEncodingFaults : Prop :=
  ∀ (i : Instr) (s : State) (x : Issue), plynax i = some x →
    (x.row = false ∨ s.blk.issuer x.m x.w x.cls x.op = none → exec i s = .next (s.after s.blk)) ∧
    (∀ k, x.row = true → x.ok = false → s.blk.issuer x.m x.w x.cls x.op = some k →
      exec i s = .next (s.after ((s.blk.begun k x.w).raise k 0x0A (s.blk.slot k).issuePc x.cls x.op)))

/-- R171: an instruction that ends with a status faults its stream with that cause, keeping what it has done; one that cannot
start yet leaves everything but the queue-pair contexts whose fetch it has started (R533). -/
def Rules.FailedInstructionFaultsOrWaits : Prop :=
  ∀ (m : Member) (w : Word) (cls op k : Nat) (body : Cx → Act Unit) (b t : Blk) (e : Nat),
    b.issuer m w cls op = some k → body (b.cx k w) (b.begun k w) = .error e t →
    (e ≠ notYet → issue m w cls op true body b = t.raise k e (b.slot k).issuePc cls op) ∧
    (e = notYet → issue m w cls op true body b = { b with xpt := { b.xpt with fetching := t.xpt.fetching } })

/-- R172, R174: a fault stops its member and every running member of the gang; the fault kept is that of the lowest fetch
index. -/
def Rules.FaultStopsGang : Prop :=
  ∀ (b : Blk) (k cause : Nat) (pc : BitVec 32) (cls op : Nat),
    ((b.raise k cause pc cls op).slot k).st = .stop ∧ ((b.raise k cause pc cls op).slot k).wait = .none ∧
    ((b.slot k).flt = none → ((b.raise k cause pc cls op).slot k).flt =
      some ⟨cause, pc, cls, op, (b.slot k).layer, (b.slot k).oper, b.now⟩) ∧
    (∀ g, (b.slot k).flt = some g → g.pc ≤ pc → ((b.raise k cause pc cls op).slot k).flt = some g) ∧
    (∀ j s, (j, s) ∈ (b.raise k cause pc cls op).slots → s.bound = true → s.ctx = (b.slot k).ctx → j / 40 = k / 40 → s.st ≠ .run)

/-- Plynax: an undefined encoding and a failed instruction fault the stream, and a fault stops its gang: the parts named here together. -/
def Obligations.InstructionsThatDoNotComplete : Prop :=
  Rules.UndefinedEncodingFaults ∧ Rules.FailedInstructionFaultsOrWaits ∧ Rules.FaultStopsGang

/-! ### SEQ and SYNC -/

/-- R145 to R151, R161: what the SEQ instructions do when they complete. -/
def Rules.SeqInstructions : Prop :=
  ∀ (m : Member) (w x : Word) (s : State) (k : Nat),
    (s.blk.issuer m w 0 0 = some k → wordOk w false (0, 0) = true → rsvdOk w [] = true →
      exec (.seqNop m w) s = .next (s.after (s.blk.begun k w))) ∧
    (s.blk.issuer m w 0 1 = some k → wordOk w false (0, 0) = true → rsvdOk w [] = true →
      exec (.seqEnd m w) s = .next (s.after ((s.blk.begun k w).mapSlot k (fun r => { r with st := .ended })))) ∧
    (s.blk.issuer m w 0 3 = some k → wordOk w false (0, 0) = true → rsvdOk w [(31, 16), (15, 0)] = true →
      ∃ t : Blk, exec (.seqTag m w) s = .next (s.after t) ∧
        (t.slot k).layer.toNat = bits w 31 16 ∧ (t.slot k).oper.toNat = bits w 15 0) ∧
    (s.blk.issuer m w 0 4 = some k → wordOk w false (0, 0) = true → rsvdOk w [(5, 0)] = true → bits w 5 0 ≠ 0 →
      exec (.seqFence m w) s = .next (s.after (
        if s.blk.outst.all (fun o => decide (o.slot ≠ k) || !o.kind.inScope (bits w 5 0)) then s.blk.begun k w
        else (s.blk.begun k w).mapSlot k (fun r => { r with wait := .scope (bits w 5 0), waitFrom := s.blk.aon.elapsed })))) ∧
    (s.blk.issuer m w 0 5 = some k → wordOk w true (0, 0) = true → rsvdOk w [] = true →
      exec (.seqSeed m w x) s = .next (s.after ((s.blk.begun k w).mapSlot k (fun r => { r with seed := x })))) ∧
    (∀ v, s.blk.issuer m w 0 6 = some k → scalarOk w = true → scalarFn s.blk k w x = some v →
      exec (.seqScalar m w x) s = .next (s.after ((s.blk.begun k w).mapSlot k (·.setS (bits w 43 39) v)))) ∧
    (s.blk.issuer m w 0 7 = some k → wordOk w false (0, 0) = true → rsvdOk w [(47, 45), (44, 44), (40, 32)] = true →
      bits w 47 45 ≠ 0 → (bit w 44 = true → bits w 40 37 = 0) →
      exec (.seqMask m w) s = .next (s.after ((s.blk.begun k w).mapSlot k (·.setM (bits w 47 45)
        (BitVec.ofNat 256 (2 ^ min (if bit w 44 then (s.blk.sreg k (bits w 36 32)).toNat else bits w 40 32) 256 - 1))))))

/-- R147: SEQ.LOOP with a count makes its counter active over the body that follows; with count 0 the member goes past the
body. -/
def Rules.LoopCompletes : Prop :=
  ∀ (m : Member) (w : Word) (s : State) (k count : Nat) (start : BitVec 32),
    s.blk.issuer m w 0 2 = some k → wordOk w false (0, 0) = true → rsvdOk w [(47, 45), (44, 44), (43, 20), (15, 0)] = true →
    (bit w 44 = true → bits w 43 25 = 0) → bits w 15 0 ≠ 0 →
    count = (if bit w 44 then (s.blk.sreg k (bits w 24 20)).toNat else bits w 43 20) → count < 2 ^ 32 →
    start = (s.blk.slot k).issuePc + 1 → (((s.blk.slot k).lc.toList[bits w 47 45]?).getD {}).active = false →
    (s.blk.slot k).nestOk start (bits w 15 0) = true →
    exec (.seqLoop m w) s = .next (s.after ((s.blk.begun k w).mapSlot k (fun r =>
      if count = 0 then { r with fetch := start + BitVec.ofNat 32 (bits w 15 0) }
      else
        let l : Loop := ⟨true, count, 0, start, start + BitVec.ofNat 32 (bits w 15 0), (s.blk.slot k).issuePc,
          (r.lc.toList.filter (·.active)).length⟩
        { r with lc := r.lc.setIfInBounds (bits w 47 45) l })))

/-- R146: the functions of SEQ.SCALAR. -/
def Rules.ScalarFunctions : Prop :=
  ∀ (b : Blk) (k : Nat) (w x : Word),
    (bits w 47 44 = 0 → scalarFn b k w x = some (if bit w 53 then x else (w.truncate 32).signExtend 64)) ∧
    (bits w 47 44 = 1 → bits w 31 5 = 0 → scalarFn b k w x = some (b.sreg k (bits w 38 34) + b.sreg k (bits w 4 0))) ∧
    (bits w 47 44 = 2 → scalarFn b k w x = some (b.sreg k (bits w 38 34) + (w.truncate 32).signExtend 64)) ∧
    (bits w 47 44 = 3 → bits w 31 5 = 0 → scalarFn b k w x = some (b.sreg k (bits w 38 34) - b.sreg k (bits w 4 0))) ∧
    (bits w 47 44 = 4 → scalarFn b k w x = some (b.sreg k (bits w 38 34) * (w.truncate 32).signExtend 64)) ∧
    (bits w 47 44 = 5 → bits w 31 6 = 0 → scalarFn b k w x = some (b.sreg k (bits w 38 34) <<< bits w 5 0)) ∧
    (bits w 47 44 = 6 → bits w 31 6 = 0 → scalarFn b k w x = some (b.sreg k (bits w 38 34) >>> bits w 5 0)) ∧
    (bits w 47 44 = 7 → bits w 31 5 = 0 → scalarFn b k w x = some (b.sreg k (bits w 38 34) &&& b.sreg k (bits w 4 0))) ∧
    (bits w 47 44 = 8 → bits w 31 5 = 0 → scalarFn b k w x = some (b.sreg k (bits w 38 34) ||| b.sreg k (bits w 4 0))) ∧
    (∀ l, bits w 47 44 = 9 → bits w 38 34 = 0 → bits w 31 3 = 0 → (b.slot k).lc.toList[bits w 2 0]? = some l → l.active = true →
      scalarFn b k w x = some (word l.idx)) ∧
    (10 ≤ bits w 47 44 → scalarFn b k w x = none)

/-- What the SEQ instructions do: NOP, END, LOOP, TAG, FENCE, SEED, SCALAR, MASK: the parts named here together. -/
def Obligations.SeqInstructionsComplete : Prop :=
  Rules.SeqInstructions ∧ Rules.LoopCompletes ∧ Rules.ScalarFunctions

/-- R138: a write of s0 or m0 is discarded, s0 reads 0 and m0 all ones; another register reads what was written to it, and the
others keep their value. -/
def Obligations.ZeroRegisters : Prop :=
  ∀ (b : Blk) (k n j : Nat) (v : Word) (u : BitVec 256), n < 32 → j < 32 →
    b.sreg k 0 = 0 ∧ (b.slot k).mask 0 = -1 ∧ (b.slot k).setS 0 v = b.slot k ∧ (b.slot k).setM 0 u = b.slot k ∧
    ((b.mapSlot k (·.setS n v)).sreg k j = if j = n ∧ n ≠ 0 then v else b.sreg k j) ∧
    (n < 8 → j < 8 → ((b.slot k).setM n u).mask j = if j = n ∧ n ≠ 0 then u else (b.slot k).mask j)

/-- R153 to R155: what the SYNC instructions do on an object of the member's partition: a signal waits for the member's earlier
writes of its coverage, and a wait that is not satisfied stops the member. -/
def Rules.SyncInstructions : Prop :=
  ∀ (m : Member) (w x : Word) (s : State) (k obj : Nat) (v : Word),
    syncWordOk w = true → s.blk.syncOperands k w x = (obj, v) → s.blk.syncOwner obj = some (s.blk.slot k).part.toNat →
    let part := (s.blk.slot k).part.toNat
    let give (u : Word) (set' remote : Bool) (b : Blk) : Blk := { b with sigs := b.sigs ++ [PendSig.mk obj u set' part (some k)
      ((b.outst.filter (fun o => decide (o.slot = k) && o.kind.covered remote)).map (·.id))] }
    let wait (b : Blk) : Blk := if syncOk (s.blk.syncVal obj) v then b
      else b.mapSlot k (fun r => { r with wait := .sync obj v, waitFrom := s.blk.aon.elapsed })
    (s.blk.issuer m w 1 0 = some k → exec (.syncWait m w x) s = .next (s.after (wait (s.blk.begun k w)))) ∧
    (s.blk.issuer m w 1 1 = some k → exec (.syncSignal m w x) s = .next (s.after (give v false false (s.blk.begun k w)))) ∧
    (s.blk.issuer m w 1 2 = some k → exec (.syncArrive m w x) s = .next (s.after (wait (give 1 false false (s.blk.begun k w))))) ∧
    (s.blk.issuer m w 1 3 = some k → exec (.syncSet m w x) s = .next (s.after (give v true false (s.blk.begun k w)))) ∧
    (s.blk.issuer m w 1 5 = some k → exec (.syncSignalR m w x) s = .next (s.after (give v false true (s.blk.begun k w)))) ∧
    (s.blk.issuer m w 1 6 = some k → exec (.syncArriveR m w x) s = .next (s.after (wait (give 1 false true (s.blk.begun k w)))))

/-- R153, R154, R157: a pending signal whose writes are visible changes its counter, and the new value wakes the waiters it
satisfies; assigning an object zeroes its counter; a wait that outlasts its limit faults its stream with cause 0x07. -/
def Rules.SyncObjectsChange : Prop :=
  (∀ (s : State) (n : Nat) (g : PendSig), s.blk.sigs[n]? = some g → s.blk.sigDue n g = true → s.blk.ownsSync g.part g.obj = true →
    ∃ b : Blk, b.regs = s.blk.regs ∧ b.slots = s.blk.slots ∧ b.sigs = s.blk.sigs.eraseIdx n ∧
      exec (.syncSignalApply n) s = .next (s.after (b.setSync g.obj (if g.set then g.val else s.blk.syncVal g.obj + g.val)))) ∧
  (∀ (src : Src) (obj : BitVec 14) (v : Word) (s : State), s.blk.takes src (Reg.coreSyncOwn (obj.toNat / 8192) (obj.toNat % 8192)) = true →
    s.blk.slots.all (fun ks => match ks.2.wait with | .sync o _ => decide (o ≠ obj.toNat) | _ => true) = true →
    exec (.coreSyncOwnWrite src obj v) s = .next (s.after
      ((s.blk.setReg (Reg.coreSyncOwn (obj.toNat / 8192) (obj.toNat % 8192)) (v &&& 0x80000000000003FF)).setReg
        (Reg.coreSyncVal (obj.toNat / 8192) (obj.toNat % 8192)) 0))) ∧
  (∀ (m : Member) (s : State) (k o : Nat) (v : Word), s.blk.memberKey m = some k → (s.blk.slot k).wait = .sync o v →
    (s.blk.core (k / 2)).moving = none → (s.blk.slot k).st = .run → (s.blk.slot k).waitLimit ≠ 0 → syncOk (s.blk.syncVal o) v = false →
    ∃ t : Blk, exec (.waitLimitExpiry m) s = .next (s.after t) ∧ (t.slot k).st = .stop ∧
      ((s.blk.slot k).flt = none → ((t.slot k).flt.map (fun f => (f.cause, f.pc))) = some (7, (s.blk.slot k).lastPc)))

/-- What the SYNC instructions, pending signals, assignments and expired waits do: the parts named here together. -/
def Obligations.SyncInstructionsComplete : Prop :=
  Rules.SyncInstructions ∧ Rules.SyncObjectsChange

/-- R154: the wait for VALUE is satisfied exactly when the signed difference of the counter and VALUE is 0 or greater; a wait does not
consume the counter, and a new value lets go every member whose wait it satisfies. -/
def Obligations.SyncWaitOrder : Prop :=
  (∀ c v : Word, syncOk c v = true ↔ 0 ≤ (c - v).toInt) ∧
  (∀ (m : Member) (w x : Word) (s t : State) (o : Nat), o < 16384 → exec (.syncWait m w x) s = .next t →
    t.blk.syncVal o = s.blk.syncVal o) ∧
  (∀ (b : Blk) (o : Nat) (v : Word), o < 16384 → (b.slots.map (·.1)).Nodup →
    (b.setSync o v).syncVal o = v ∧
    ∀ (k : Nat) (u : Word), (b.slot k).wait = .sync o u → syncOk v u = true → ((b.setSync o v).slot k).wait = .none)

/-! ### Registers -/

/-- R16: what a write leaves in a plain register: W1C bits written as 1 are cleared, RW bits take the written value, the others
keep theirs. -/
def Obligations.AccessCodesOfPlainRegisters : Prop :=
  (∀ (d : RegDesc) (cur v : Word) (i : Nat), i < 64 → d.rw &&& d.w1c = 0 →
    (d.write cur v).getLsbD i =
      if d.w1c.getLsbD i then cur.getLsbD i && !v.getLsbD i else if d.rw.getLsbD i then v.getLsbD i else cur.getLsbD i) ∧
  (∀ d ∈ regTable, d.rw &&& d.w1c = 0)

/-- R16, R41, R42: REGISTER_WRITE: a 64-bit write of a plain register stores what its access codes leave, by way of the change log;
where no register lies nothing changes; a 32-bit write acts as a 64-bit one whose other half keeps its RW bits; an access of
another size or alignment is ignored, a host core's access fault or a recorded firmware fault. -/
def Rules.RegisterWriteCompletes : Prop :=
  ∀ (src : Src) (off size : Nat) (v : Word) (s : State),
    (∀ d, size = 8 → off % 8 = 0 → off < 0x9000000 → plainReg off = true → s.blk.takes src off = true → regDesc off = some d →
      exec (.registerWrite src off size v) s = .next (s.after
        ((logged (srcWho src) off (modify (·.setReg off (d.write (s.blk.reg off) v)))).exec' s.blk))) ∧
    (size = 8 → off % 8 = 0 → off < 0x9000000 → plainReg off = true → s.blk.takes src off = true → regDesc off = none →
      exec (.registerWrite src off size v) s = .next (s.after s.blk)) ∧
    (size = 4 → off % 4 = 0 → off < 0x9000000 → s.blk.takes src off = true →
      exec (.registerWrite src off size v) s = exec (.registerWrite src (off / 8 * 8) 8 (s.blk.widen off 4 v)) s) ∧
    (regSizeOk off size = false →
      exec (.registerWrite src off size v) s = .next (s.after (match src with
        | .host => s.blk.answer [] true false
        | .control => { s.blk with host := { s.blk.host with fwFaults := s.blk.host.fwFaults + 1 } }))) ∧
    (regSizeOk off size = true → s.blk.takes src off = false →
      ∃ t : Blk, exec (.registerWrite src off size v) s = .next (s.after t) ∧ t.host.held = s.blk.host.held ++ [.reg off size v])

/-- R62: PKG_NUMBER takes its two fields; while a queue pair is open a new PACKAGE waits for the next warm reset. -/
def Rules.PackageNumberWrite : Prop :=
  ∀ (src : Src) (v : Word) (s : State),
    (s.blk.anyQp = false → (src = .control ∨ bit (s.blk.reg Reg.secPolicy) 0 = true) →
      ∃ t : Blk, exec (.pkgNumberWrite src v) s = .next (s.after t) ∧ t.reg Reg.pkgNumber = v &&& 0x80000FFF) ∧
    (s.blk.anyQp = true → bits (s.blk.reg Reg.pkgNumber) 11 0 ≠ bits (v &&& 0x80000FFF) 11 0 →
      (src = .control ∨ s.blk.policy .host 1 = true) →
      ∃ t : Blk, exec (.pkgNumberWrite src v) s = .next (s.after t) ∧ t.reg Reg.pkgNumber = s.blk.reg Reg.pkgNumber ∧
        t.pwr.keep.number = some (v &&& 0x80000FFF))

/-- R426, R455: a write of a notify entry stores it, and fires it at once when its wait is already satisfied. -/
def Rules.NotifyEntryWrite : Prop :=
  ∀ (src : Src) (n : BitVec 8) (v : Word) (s : State) (d : RegDesc), regDesc (Reg.hceNotifyCtl n.toNat) = some d →
    let off := Reg.hceNotifyCtl n.toNat
    let w := d.write (s.blk.reg off) v
    exec (.hceNotifyCtlWrite src n v) s = .next (s.after (
      if bit w 63 = true ∧ bit w 62 = false ∧ (s.blk.syncOwner (bits w 45 32)).isSome = true ∧
          syncOk (s.blk.syncVal (bits w 45 32)) (s.blk.reg (off + 8)) = true then
        (s.blk.setReg off (setBit w 62 true)).msi (bits w 23 19) (bits w 18 16) (bits w 10 0)
      else s.blk.setReg off w))

/-- REGISTER_WRITE, PKG_NUMBER_WRITE and HCE_NOTIFY_CTL_WRITE: the parts named here together. -/
def Obligations.RegisterWritesComplete : Prop :=
  Rules.RegisterWriteCompletes ∧ Rules.PackageNumberWrite ∧ Rules.NotifyEntryWrite

/-- R628: a register write that changes a kept setting is recorded with its old and new values; one that the policy denies to the
host registers changes nothing and is recorded as refused; any other is not recorded. -/
def Rules.ChangeLogRecordsSettings : Prop :=
  ∀ (who : Nat × Nat) (off : Nat) (v : Word) (b : Blk),
    let kept : Word := if off = Reg.aonAlarm then -1 else ((regDesc off).map (·.ret)).getD 0
    ((b.reg off ^^^ v) &&& kept = 0 → (logged who off (modify (·.setReg off v))) b = .ok () (b.setReg off v)) ∧
    ((b.reg off ^^^ v) &&& kept ≠ 0 → (who.1 ≠ 1 ∨ bit (b.reg Reg.secPolicy) 0 = true) →
      (logged who off (modify (·.setReg off v))) b = changeLog who 0x01 off (b.reg off) v (b.setReg off v)) ∧
    ((b.reg off ^^^ v) &&& kept ≠ 0 → who.1 = 1 → bit (b.reg Reg.secPolicy) 0 = false →
      (logged who off (modify (·.setReg off v))) b = changeLog who 0x09 off 0 0 b)

/-- R628: the four words of a change-log record, and the index that counts them. -/
def Rules.ChangeLogRecord : Prop :=
  ∀ (who : Nat × Nat) (action off : Nat) (old new : Word) (b : Blk),
    let n := b.fld Reg.secLogIdx 31 0
    ∃ t : Blk, changeLog who action off old new b = .ok () t ∧
      t.reg (Reg.secLog (4 * (n % 1024))) = word b.now ∧
      t.reg (Reg.secLog (4 * (n % 1024) + 1)) = word (who.1 <<< 56 ||| action <<< 48 ||| who.2 <<< 32 ||| off) ∧
      t.reg (Reg.secLog (4 * (n % 1024) + 2)) = old ∧ t.reg (Reg.secLog (4 * (n % 1024) + 3)) = new ∧
      t.fld Reg.secLogIdx 31 0 = (n + 1) % 2 ^ 32 ∧ t.slots = b.slots ∧ t.mem = b.mem

/-- Which register writes the change log records, and the record: the parts named here together. -/
def Obligations.ChangeLogRecords : Prop :=
  Rules.ChangeLogRecordsSettings ∧ Rules.ChangeLogRecord

/-! ### Host-core and PCIe accesses -/

/-- R40, R41, R420, R447: HOST_MEMORY_ACCESS of a running host core: what loads, stores and AMOs of memory answer and store, what a
register read answers, and where an access fault is raised. -/
def Rules.HostAccessCompletes : Prop :=
  ∀ (hart : Fin 32) (x : HostAccess) (s : State) (a : Nat) (r : Region),
    s.blk.hartRuns hart.val = true → s.blk.dozing = false → s.blk.resolve x.addr = (a, r) →
    (r = .nothing → exec (.hostMemoryAccess hart x) s = .next (s.after (s.blk.answer [] true false))) ∧
    (r = .regs → x.op = .load → regSizeOk (x.addr - 0x0F0000000000) x.size = true →
      exec (.hostMemoryAccess hart x) s = .next (s.after (s.blk.answer
        (((natLe 8 (s.blk.regRead ((x.addr - 0x0F0000000000) / 8 * 8)).toNat).drop ((x.addr - 0x0F0000000000) % 8)).take x.size)
        false false))) ∧
    (r = .regs → regSizeOk (x.addr - 0x0F0000000000) x.size = false →
      exec (.hostMemoryAccess hart x) s = .next (s.after (s.blk.answer [] true false))) ∧
    (∀ d, r = .hbm d → s.blk.linkDown d = true →
      exec (.hostMemoryAccess hart x) s = .next (s.after (s.blk.answer [] true false))) ∧
    (r = .ddr → (s.blk.resolve (x.addr + x.size - 1)).2 = .ddr → x.op = .load → a % 8192 + x.size ≤ 8192 → 0 < x.size →
      s.blk.Clean → s.blk.BuffersOk → s.blk.MemOk → s.blk.unwritten (a / 8192) = false → (s.blk.fmeta (a / 8192)).hdr.poison = false →
      s.blk.mem.poisonLines = [] →
      ∃ t : Blk, exec (.hostMemoryAccess hart x) s = .next (s.after t) ∧
        t.host.resp = (List.range x.size).map (fun i => s.blk.byteAt (a + i)) ∧ t.host.accessFault = false ∧ t.host.busPoison = false ∧
        ∀ y, t.byteAt y = s.blk.byteAt y) ∧
    (r = .ddr → (s.blk.resolve (x.addr + x.size - 1)).2 = .ddr → x.op = .store → a % 8192 + x.size ≤ 8192 → 0 < x.size →
      s.blk.Clean → s.blk.BuffersOk → s.blk.MemOk →
      ∃ t : Blk, exec (.hostMemoryAccess hart x) s = .next (s.after t) ∧ t.host.accessFault = false ∧
        ∀ y, t.byteAt y = if a ≤ y ∧ y < a + x.size then nth (padTo x.size x.data) 0 (y - a) else s.blk.byteAt y) ∧
    (r = .ddr → (s.blk.resolve (x.addr + x.size - 1)).2 = .ddr → x.op = .amoAdd → (x.size = 4 ∨ x.size = 8) → a % x.size = 0 →
      s.blk.Clean → s.blk.BuffersOk → s.blk.MemOk → s.blk.unwritten (a / 8192) = false → (s.blk.fmeta (a / 8192)).hdr.poison = false →
      s.blk.mem.poisonLines = [] →
      ∃ t : Blk, exec (.hostMemoryAccess hart x) s = .next (s.after t) ∧
        t.host.resp = (List.range x.size).map (fun i => s.blk.byteAt (a + i)) ∧
        ∀ y, t.byteAt y = if a ≤ y ∧ y < a + x.size then
          nth (natLe x.size (leNat ((List.range x.size).map (fun i => s.blk.byteAt (a + i))) + leNat (padTo x.size x.data))) 0 (y - a)
          else s.blk.byteAt y)

/-- R421: a PCIe device reaches the DDR5 tier and the IMSIC files, and nothing else. -/
def Rules.PcieDeviceRequests : Prop :=
  ∀ s : State,
    (∀ (hart : Fin 32) (file : Fin 8) (eiid : BitVec 11),
      exec (.pcieDeviceRequest (.msi hart file eiid)) s = .next (s.after (s.blk.msi hart.val file.val eiid.toNat))) ∧
    (exec (.pcieDeviceRequest .iommuFault) s = .next (s.after (s.blk.answer [] true false))) ∧
    (∀ pa len, (s.blk.resolve pa).2 ≠ .ddr → exec (.pcieDeviceRequest (.read pa len)) s = .next (s.after (s.blk.answer [] true false))) ∧
    (∀ pa data, (s.blk.resolve pa).2 ≠ .ddr →
      exec (.pcieDeviceRequest (.write pa data)) s = .next (s.after (s.blk.answer [] true false))) ∧
    (∀ pa data, (s.blk.resolve pa).2 = .ddr → (s.blk.resolve (pa + data.length - 1)).2 = .ddr → pa % 8192 + data.length ≤ 8192 →
      data ≠ [] → s.blk.Clean → s.blk.BuffersOk → s.blk.MemOk →
      ∃ t : Blk, exec (.pcieDeviceRequest (.write pa data)) s = .next (s.after t) ∧
        ∀ y, t.byteAt y = if pa ≤ y ∧ y < pa + data.length then nth data 0 (y - pa) else s.blk.byteAt y)

/-- HOST_MEMORY_ACCESS and PCIE_DEVICE_REQUEST: what they read, write and refuse: the parts named here together. -/
def Obligations.HostAndDeviceAccesses : Prop :=
  Rules.HostAccessCompletes ∧ Rules.PcieDeviceRequests

/-! ### Die-to-die links, notify entries, drain and restart -/

/-- R27, R444: a working module that retrains holds its traffic and is counted; it goes on when it has retrained, and leaves its
group when it has not. -/
def Rules.UcieRetraining : Prop :=
  ∀ (u : Nat) (s : State),
    (s.blk.ucieUp u = true → s.blk.host.retrain.contains u = false →
      ∃ t : Blk, exec (.ucieRetrainStart u) s = .next (s.after t) ∧ t.host.retrain = s.blk.host.retrain ++ [u] ∧
        (∀ d, ucieDie u = some d →
          t.fld Reg.hceLinkSts (16 * d + 15) (16 * d) = satAdd 16 (s.blk.fld Reg.hceLinkSts (16 * d + 15) (16 * d)) 1)) ∧
    (exec (.ucieRetrainDone u) s = .next (s.after { s.blk with host :=
      { s.blk.host with retrain := s.blk.host.retrain.filter (fun x => decide (x ≠ u)) } })) ∧
    (∀ d, ucieDie u = some d → s.blk.host.retrain.contains u = true →
      bits (setBits (s.blk.reg Reg.hceLinkSts) (ucieUpBit u) (ucieUpBit u) 0) (51 + 4 * d) (48 + 4 * d) ≠ 0 →
      exec (.ucieRetrainTimeout u) s = .next (s.after
        ((({ s.blk with host := { s.blk.host with retrain := s.blk.host.retrain.filter (fun x => decide (x ≠ u)) } }.setFld Reg.hceLinkSts
          (ucieUpBit u) (ucieUpBit u) 0).msiSource 3).withEv { code := 0x08, sev := 1, die := d, d0 := u })))

/-- R448 to R454: drain, restart and enable, and the end of a drain. -/
def Rules.DrainAndRestart : Prop :=
  ∀ (src : Src) (s : State),
    (s.blk.hold = false → exec (.drain src) s = .next (s.after
      { s.blk with host := { s.blk.host with drain := some (s.blk.host.drain.getD false) } })) ∧
    (s.blk.hold = false → exec (.restart src) s = .next (s.after { s.blk with host := { s.blk.host with drain := some true } })) ∧
    (s.blk.hold = true → exec (.enable src) s = .next (s.after (s.blk.setFld Reg.hceRestart 33 32 0))) ∧
    (s.blk.hold = true → s.blk.mem.hostDirty = [] → exec (.restart src) s = .next (s.after
      { s.blk with host := { s.blk.host with coreResets := s.blk.host.coreResets + 1, coresStopped := false, doubleTrap := 0, reserve := [] } })) ∧
    (∀ ns, s.blk.host.drain = some false → exec (.drainComplete ns) s = .next (s.after
      (({ s.blk with host := { s.blk.host with drain := none } }.setReg Reg.hceRestart
        (word (3 <<< 32 ||| min ns (2 ^ 32 - 1)))).msiSource 4))) ∧
    (exec (.sbiSystemReset .reboot) s = exec (.restart src) s) ∧
    (s.blk.hold = false → ∃ t : Blk, exec (.sbiSystemReset .shutdown) s = .next (s.after t) ∧ t.host.coresStopped = true ∧
      t.host.drain = some (s.blk.host.drain.getD false))

/-- R440: a PCIe link that goes down is recorded, and a copy at the head of an engine that was moving data on it leaves the engine
(it completes with 0x08). -/
def Rules.PcieLinkDown : Prop :=
  ∀ (port : Fin 4) (s : State) (b : Blk), port.val < 2 ^ min (s.blk.fld Reg.hcePcieCfg 7 6) 2 →
    b = { s.blk with host := { s.blk.host with
      pcieDown := s.blk.host.pcieDown.filter (fun x => decide (x ≠ port.val)) ++ [port.val] } } →
    (s.blk.engines = [] → exec (.pcieLinkDown port) s = .next (s.after b)) ∧
    (∀ e x r, s.blk.engines = [(e, x :: r)] → x.onPort b port.val = false → exec (.pcieLinkDown port) s = .next (s.after b)) ∧
    (∀ e x r, s.blk.engines = [(e, x :: r)] → x.onPort b port.val = true →
      ∃ t : Blk, exec (.pcieLinkDown port) s = .next (s.after t) ∧ sget [] t.engines e = r ∧ t.host.pcieDown = b.host.pcieDown ∧
        ∀ o ∈ t.outst, o.id ≠ x.comp.id)

/-- Retraining of die-to-die modules, drain, restart and enable, PCIe link down: the parts named here together. -/
def Obligations.LinksDrainAndRestart : Prop :=
  Rules.UcieRetraining ∧ Rules.DrainAndRestart ∧ Rules.PcieLinkDown

/-! ### Streams -/

/-- R126 to R131, R138: BIND_FG and BIND_BF of a stream whose descriptor and gang meet the checks: its members' slots are loaded,
the descriptor says that the stream runs, and CORE_CTX_STS reports 0x00. -/
def Obligations.BindCompletes : Prop :=
  ∀ (bf : Bool) (src : Src) (die : Fin 2) (ctx : BitVec 16) (s : State) (ws : List Word) (b : Blk),
    let n := ctx.toNat
    let d := die.val
    let g := nth ws (0 : Word)
    let gang := bits (g 0) 15 0
    let part := bits (g 0) 57 48
    s.blk.takes src (Reg.coreCtxCmd d) = true → bit (s.blk.reg (Reg.coreCtxSts d)) 63 = false →
    readWords (s.blk.ctxAddr n) 32 s.blk = .ok ws b →
    bits (g 0) 63 62 = 1 → bits (g 0) 61 58 = 0 → bits (g 0) 40 40 = d → gang ≠ 0 → 9 ≤ bits (g 1) 5 0 → bits (g 1) 5 0 ≤ 20 →
    s.blk.members n = [] → descOk ws = true → s.blk.partOn part = true → s.blk.dieOut d = false → s.blk.pinnedCtxs d < 4095 →
    b.xpt.cache = [[], []] →
    (bit (g 4) 63 = true → s.blk.ownsSync part (bits (g 4) 45 32) = true) →
    (∀ l ∈ bitsOf gang 16, ∃ p, p < 20 ∧ s.blk.physOf d l = some p ∧ s.blk.start.noBind.contains (d, l) = false ∧
      (s.blk.slot (slotKey d p bf)).bound = false ∧ (bf = true → s.blk.bfEn d p = true)) →
    (∀ l ∈ bitsOf gang 16, ∀ l' ∈ bitsOf gang 16, s.blk.physOf d l = s.blk.physOf d l' → l = l') →
    ∃ t : Blk, exec (if bf then .bindBf src die ctx else .bindFg src die ctx) s = .next (s.after t) ∧
      t.reg (Reg.coreCtxSts d) = word n ∧
      ∀ l ∈ bitsOf gang 16, ∀ p, s.blk.physOf d l = some p →
        let r := t.slot (slotKey d p bf)
        r.bound = true ∧ r.ctx = ctx ∧ r.part.toNat = part ∧ r.log = l ∧ r.st = .run ∧ r.stt = 1 ∧ r.wait = .none ∧
        r.fetch.toNat = bits (g 2) 31 0 ∧ r.tail = r.fetch ∧ r.seed = g 3 ∧
        r.s.toList = [0, word (popcount gang l), word (popcount gang 16), g 6] ++ List.replicate 28 0 ∧
        r.waitLimit = bits (g 5) 31 0

/-- R129, R130, R787: ABORT and UNBIND of a bound, running stream stop its members and stay under way; UNBIND of a stream that has
ended frees its slots at once; a stream of another die, or none, ends with 0x0A. -/
def Rules.AbortAndUnbind : Prop :=
  ∀ (unbind : Bool) (src : Src) (die : Fin 2) (ctx : BitVec 16) (s : State) (w : Word) (b : Blk),
    let cmd : Instr := if unbind then .unbind src die ctx else .abort src die ctx
    let n := ctx.toNat
    let d := die.val
    s.blk.takes src (Reg.coreCtxCmd d) = true → bit (s.blk.reg (Reg.coreCtxSts d)) 63 = false → ctxWord n 0 s.blk = .ok w b →
    bits w 63 62 = 1 → bits w 40 40 = d →
    (∀ k, (s.blk.members n).head? = some k → (s.blk.slot k).stt = 1 → b.slots = s.blk.slots →
      ∃ t : Blk, exec cmd s = .next (s.after t) ∧ t.reg (Reg.coreCtxSts d) = word (1 <<< 63 ||| n) ∧ (d, n, unbind) ∈ t.ctxCmds ∧
        ∀ j ∈ s.blk.members n, (t.slot j).st ≠ .run) ∧
    (∀ k, (s.blk.members n).head? = some k → (s.blk.slot k).stt ≠ 1 → (s.blk.slot k).stt ≠ 0 → b.slots = s.blk.slots →
      ∃ t : Blk, exec cmd s = .next (s.after t) ∧ t.reg (Reg.coreCtxSts d) = word n ∧
        (unbind = true → ∀ j ∈ s.blk.members n, (t.slot j).bound = false ∧ (t.slot j).stt = 0)) ∧
    ((s.blk.members n).head? = none → bits w 61 58 = 0 →
      ∃ t : Blk, exec cmd s = .next (s.after t) ∧ t.reg (Reg.coreCtxSts d) = word (0x0A <<< 48 ||| n))

/-- R130, R151, R173: once a stream's members have stopped and what they issued has completed, an abort of it ends with STATE 0x4,
the end of the program with 0x2 and the completion signal, and a fault with 0x3, its record in CORE_FAULT and the interrupt. -/
def Rules.StreamsEnd : Prop :=
  ∀ (ctx : BitVec 16) (s : State) (k : Nat),
    let n := ctx.toNat
    s.blk.members n = [k] → (s.blk.slot k).stt = 1 → s.blk.outst = [] → s.blk.sigs = [] → s.blk.col = {} → s.blk.xpt = {} →
    s.blk.engines = [] → (s.blk.slot k).wait = .none → (s.blk.slots.map (·.1)).Nodup →
    ((s.blk.slot k).st = .stop → (s.blk.slot k).flt = none → s.blk.ctxCmds = [(keyDie k, n, false)] → keyDie k < 2 →
      ∃ t : Blk, exec (.abortComplete ctx) s = .next (s.after t) ∧ t.ctxCmds = [] ∧ (t.slot k).stt = 4 ∧
        t.reg (Reg.coreCtxSts (keyDie k)) = word n) ∧
    ((s.blk.slot k).st = .ended → (s.blk.slot k).flt = none → s.blk.ctxCmds = [] →
      ∃ t : Blk, exec (.streamEnd ctx) s = .next (s.after t) ∧ (t.slot k).stt = 2 ∧ (t.slot k).st = .ended ∧
        (∀ o v, (s.blk.slot k).fin = some (o, v) → s.blk.syncOwner o = some (s.blk.slot k).part.toNat → o < 16384 →
          t.syncVal o = s.blk.syncVal o + v)) ∧
    (∀ f, (s.blk.slot k).st = .stop → (s.blk.slot k).flt = some f → s.blk.ctxCmds = [] → k < 80 →
      bit (s.blk.reg (Reg.coreFault (keyDie k) (keyPhys k))) 63 = false →
      ∃ t : Blk, exec (.streamFaultRecord ctx) s = .next (s.after t) ∧ (t.slot k).stt = 3 ∧
        t.reg (Reg.coreFault (keyDie k) (keyPhys k)) =
          word (1 <<< 63 ||| (k % 2) <<< 62 ||| f.cause <<< 48 ||| n <<< 32 ||| f.pc.toNat))

/-- R171: an error that an instruction reports to its stream faults the instruction the member is about to issue. -/
def Rules.StreamFaultCompletes : Prop :=
  ∀ (m : Member) (cause : BitVec 8) (s : State) (k : Nat) (pc : BitVec 32) (w : Word) (ws : List Word),
    s.blk.memberKey m = some k → (s.blk.slot k).bound = true → (s.blk.slot k).stt = 1 →
    ((s.blk.slot k).latched = some (pc, w :: ws) →
      exec (.streamFault m cause) s = .next (s.after (s.blk.raise k cause.toNat pc (bits w 63 60) (bits w 59 54)))) ∧
    ((s.blk.slot k).latched = none →
      exec (.streamFault m cause) s = .next (s.after (s.blk.raise k cause.toNat (s.blk.slot k).lastPc
        (bits (s.blk.slot k).lastW 63 60) (bits (s.blk.slot k).lastW 59 54))))

/-- ABORT, UNBIND, the end of a stream, its fault record, and an error reported to a stream: the parts named here together. -/
def Obligations.StreamsStopAndEnd : Prop :=
  Rules.AbortAndUnbind ∧ Rules.StreamsEnd ∧ Rules.StreamFaultCompletes

/-- R134, R135: a doorbell moves TAIL of every member of a running stream of the page's partition, and a signal adds to an object
of it; a rejected one changes nothing but the count. -/
def Rules.DoorbellPages : Prop :=
  ∀ (page : BitVec 10) (v : Word) (s : State),
    let p := page.toNat
    (∀ k, s.blk.members (bits v 15 0) = [k] → (s.blk.slot k).stt = 1 → (s.blk.slot k).part = page → s.blk.partOn p = true →
      (bits v 63 32 + 2 ^ 32 - (s.blk.slot k).headWb.toNat) % 2 ^ 32 ≤ 2 ^ (s.blk.slot k).ringLog →
      ∃ t : Blk, exec (.prtDoorbell page v) s = .next (s.after t) ∧
        t.slot k = { s.blk.slot k with tail := BitVec.ofNat 32 (bits v 63 32) } ∧ ∀ j, j ≠ k → t.slot j = s.blk.slot j) ∧
    (s.blk.members (bits v 15 0) = [] → exec (.prtDoorbell page v) s = .next (s.after (s.blk.count (Reg.prtDbrej p) 31 0 1))) ∧
    (s.blk.partOn p = true → s.blk.ownsSync p (bits v 45 32) = true →
      exec (.prtSignal page v) s = .next (s.after (s.blk.addSync (bits v 45 32) (word (bits v 31 0))))) ∧
    (s.blk.ownsSync p (bits v 45 32) = false → exec (.prtSignal page v) s = .next (s.after (s.blk.count (Reg.prtDbrej p) 31 0 1)))

/-- R132, R139 to R141: a member whose index differs from TAIL fetches the words of its next instruction, and its index moves past
them. -/
def Rules.InstructionFetchCompletes : Prop :=
  ∀ (m : Member) (s : State) (k : Nat) (w : Word) (b : Blk),
    let r := s.blk.slot k
    s.blk.memberKey m = some k → r.bound = true → r.st = .run → r.wait = .none → r.latched = none →
    (s.blk.core (k / 2)).fenced = false → (s.blk.core (k / 2)).moving = none → s.blk.dieOut (keyDie k) = false →
    r.lc.toList.all (fun l => !l.active) = true → r.fetch ≠ r.tail →
    fetchRing (s.blk.cx k 0) r.fetch (s.blk.mapSlot k id) = .ok w b → b.slots = s.blk.slots → firstOk w = true → wordsOf w = 1 →
    s.blk.members r.ctx.toNat = [k] →
    ∃ t : Blk, exec (.instructionFetch m) s = .next (s.after t) ∧
      (t.slot k).latched = some (r.fetch, [w]) ∧ (t.slot k).fetch = r.fetch + 1 ∧ (t.slot k).tail = r.tail ∧
      ∀ j, j ≠ k → t.slot j = s.blk.slot j

/-- Doorbell and signal pages, and the fetch of an instruction: the parts named here together. -/
def Obligations.StreamsFetch : Prop :=
  Rules.DoorbellPages ∧ Rules.InstructionFetchCompletes

/-- R164 to R170: the reserved quarter is turned on and off only while neither slot is bound; a core turns to its backfill slot past a
foreground that waits or does not run, and back when the foreground can go on. -/
def Obligations.ForegroundAndBackfill : Prop :=
  (∀ (src : Src) (die : Fin 2) (p : Fin 20) (v : Word) (s : State),
    let d := die.val
    let off := Reg.coreBfCtrl d p.val
    let b1 := s.blk.setReg off (setBits (s.blk.reg off) 15 0 (bits v 15 0))
    s.blk.takes src off = true →
    (bit v 16 = bit (s.blk.reg off) 16 ∨ (s.blk.slot (slotKey d p.val false)).bound = true ∨
        (s.blk.slot (slotKey d p.val true)).bound = true →
      exec (.coreBfCtrlWrite src die p v) s = .next (s.after b1)) ∧
    (bit v 16 = false → bit (s.blk.reg off) 16 = true → (s.blk.slot (slotKey d p.val false)).bound = false →
      (s.blk.slot (slotKey d p.val true)).bound = false →
      exec (.coreBfCtrlWrite src die p v) s = .next (s.after (b1.setFld off 16 16 0))) ∧
    (bit v 16 = true → bit (s.blk.reg off) 16 = false → (s.blk.slot (slotKey d p.val false)).bound = false →
      (s.blk.slot (slotKey d p.val true)).bound = false →
      exec (.coreBfCtrlWrite src die p v) s = .next (s.after ((b1.setFld off 16 16 1).clearShare (slotKey d p.val true))))) ∧
  (∀ (die : Fin 2) (core : Fin 16) (s : State) (p : Nat),
    let d := die.val
    let fg := s.blk.slot (slotKey d p false)
    let bg := s.blk.slot (slotKey d p true)
    s.blk.physOf d core.val = some p → s.blk.moving d p = false →
    ((s.blk.core (coreKey d p)).runBf = false → bg.ready = true → fg.bound = true → fg.st = .run → fg.wait.counts = true →
      s.blk.fld (Reg.coreBfCtrl d p) 15 0 ≠ 0 → exec (.backfillSwitch die core) s = .next (s.after (switchTo d p true s.blk))) ∧
    ((s.blk.core (coreKey d p)).runBf = false → bg.ready = true → (fg.bound = false ∨ fg.st ≠ .run) →
      exec (.backfillRunIdle die core) s = .next (s.after (switchTo d p true s.blk))) ∧
    ((s.blk.core (coreKey d p)).runBf = true → fg.ready = true →
      exec (.foregroundReturn die core) s = .next (s.after (switchTo d p false s.blk)))) ∧
  (∀ (d p : Nat) (bf : Bool) (b : Blk), ((switchTo d p bf b).core (coreKey d p)).runBf = bf ∧ (switchTo d p bf b).slots = b.slots)

/-! ### The arrays -/

/-- R185 to R193, R203, R204: a load whose source frames read well puts the converted tile into the underpainting set (and, for a
split load, its low part into the visible set) and is not ready until its end is seen; a swap exchanges the sets. -/
def Rules.StationaryTiles : Prop :=
  ∀ (m : Member) (w : Word) (s : State) (k : Nat),
    let b := s.blk.begun k w
    let c := s.blk.cx k w
    (∀ (src dst : Fmt) (cv : Conv) (fs : List Frame), s.blk.issuer m w 3 0 = some k → wordOk w false (0, 0) = true →
      rsvdOk w [(47, 44), (43, 40), (39, 37), (36, 36), (35, 35), (34, 34), (33, 32), (4, 0)] = true →
      ldsFields w = some (src, dst, cv) →
      let va := (b.sreg k (bits w 4 0)).toNat
      va % 8192 = 0 → fs.length = (ldsFrames src dst (bits w 33 32)).getD 1 →
      (∀ i f, fs[i]? = some f → rdFrame' c (va + i * 8192) (fun _ _ _ => true) b = .ok (f, 0) b ∧ headerIs f.hdr src = true ∧
        ∃ a r, rdAddr c (va + i * 8192) b = .ok (a, r) b ∧ b.ldsSource c a r = true) →
      let o := ldsTile src dst cv (ldsRows src dst (bit w 36) (bits w 33 32) fs) (s.blk.slot k).seed (va % 2 ^ 42 / 128)
      exec (.matLds m w) s = .next (s.after ((census c 0 dst o.2.2).exec' (b.mapSlot k (fun r =>
        { r with under := some o.1, visible := o.2.1.or r.visible, underReady := false, ldsSince := true }))))) ∧
    (s.blk.memberKey m = some k → (s.blk.slot k).ldsSince = true →
      exec (.underpaintingReady m) s = .next (s.after (s.blk.mapSlot k (fun r => { r with underReady := true })))) ∧
    (s.blk.issuer m w 3 1 = some k → wordOk w false (0, 0) = true → rsvdOk w [] = true → (s.blk.slot k).ldsSince = true →
      (s.blk.slot k).underReady = true → (s.blk.slot k).visible.any (·.split) = false →
      exec (.matSwp m w) s = .next (s.after (b.mapSlot k (fun r =>
        { r with visible := r.under, under := r.visible, ldsSince := false }))))

/-- R195, R198 to R201, R219, R221: a stream whose operand, slots and frames are good adds the products of each array's tiles into
its accumulators, tile by tile from ACC on; under START they begin anew. Log entry 14 gives the one open case. -/
def Rules.ActivationStream : Prop :=
  ∀ (m : Member) (w : Word) (s : State) (k : Nat) (f : Fmt) (op : Operand) (fr : Nat → List (List Frame)),
    let b := s.blk.begun k w
    let c := s.blk.cx k w
    let w16 := bit w 35
    let start := bit w 36
    let acc := bits w 43 40
    let cnt := bits w 39 37
    let core := k / 2
    let int := decide (f = .int8)
    let va (a i : Nat) : Nat := ((b.sreg k (bits w 9 5)).toNat + a * (b.sreg k (bits w 4 0)).toNat + i * 8192) % 2 ^ 64
    s.blk.issuer m w 3 2 = some k → wordOk w false (0, 0) = true →
    rsvdOk w [(47, 44), (43, 40), (39, 37), (36, 36), (35, 35), (34, 31), (9, 5), (4, 0)] = true →
    Fmt.ofCode (bits w 34 31) = some f → f.group.isSome = true → (acc + cnt ≤ if w16 then 15 else 7) → (f = .fp32 → w16 = false) →
    (s.blk.slot k).operand f = some op → (op.split = true → (s.blk.slot k).underReady = true) →
    (∀ a ∈ arraysOf w, ∀ t, acc ≤ t → t ≤ acc + cnt → b.quarterOk c (accIdx w16 t) = true ∧
      (start = false → (b.accSlot core a (accIdx w16 t)).useFault w16 t = 0)) →
    (∀ a ∈ arraysOf w, ∀ i, i < strFrames f * (cnt + 1) → va a i % 8192 = 0 ∧
      (∃ pa r, rdAddr c (va a i) b = .ok (pa, r) b ∧ b.near c pa r = true) ∧
      ∃ g, (fr a).flatten[i]? = some g ∧ rdFrame' c (va a i) (fun b => b.near c) b = .ok (g, 0) b ∧ headerIs g.hdr f = true) →
    (∀ a ∈ arraysOf w, (fr a).length = cnt + 1 ∧ ∀ g ∈ fr a, g.length = strFrames f) →
    exec (.matStr m w) s = .next (s.after ((arraysOf w).foldl (fun b a => (List.zip (List.range (cnt + 1)) (fr a)).foldl (fun b tg =>
      let t := acc + tg.1
      let x := b.accSlot core a (accIdx w16 t)
      let prev := (x.tile w16 t).getD (AccTile.fresh int)
      if start = false ∧ prev.int ≠ int then
        { b with free := b.free + 4160 }.setAccSlot core a (accIdx w16 t) (x.put w16 t (freeTile int w16 b.free))
      else b.setAccSlot core a (accIdx w16 t) (x.put w16 t (accumulate op int w16 start (actRows f tg.2) prev))) b) b))

/-- R201, R218, R221: the three actions of MAT.SLOT on every selected slot of every selected array: a release empties it, a persist
and an unpersist turn a live slot into a persistent one and back; a lost slot takes a release alone. -/
def Rules.AccumulatorSlots : Prop :=
  ∀ (m : Member) (w : Word) (s : State) (k : Nat),
    let b := s.blk.begun k w
    let c := s.blk.cx k w
    let put (f : AccSlot → AccSlot) (b : Blk) : Blk := (arraysOf w).foldl (fun b a => (bitsOf (bits w 7 0) 8).foldl (fun b i =>
      b.setAccSlot (k / 2) a i (f (b.accSlot (k / 2) a i))) b) b
    s.blk.issuer m w 3 4 = some k → wordOk w false (0, 0) = true → rsvdOk w [(47, 44), (43, 42), (7, 0)] = true →
    (∀ i ∈ bitsOf (bits w 7 0) 8, b.quarterOk c i = true) →
    (bits w 43 42 = 0 → exec (.matSlotRelease m w) s = .next (s.after (put (fun _ => {}) b))) ∧
    ((∀ a ∈ arraysOf w, ∀ i ∈ bitsOf (bits w 7 0) 8, (b.accSlot (k / 2) a i).st ≠ .lost) →
      (bits w 43 42 = 1 → exec (.matSlotPersist m w) s = .next (s.after (put
        (fun x => if x.st = .live then { x with st := .persistent } else x) b))) ∧
      (bits w 43 42 = 2 → exec (.matSlotUnpersist m w) s = .next (s.after (put
        (fun x => if x.st = .persistent then { x with st := .live } else x) b)))) ∧
    (∀ a ∈ arraysOf w, ∀ i ∈ bitsOf (bits w 7 0) 8, (b.accSlot (k / 2) a i).st = .lost →
      (bits w 43 42 = 1 → exec (.matSlotPersist m w) s = .next (s.after (b.raise k 0x06 (s.blk.slot k).issuePc 3 4))) ∧
      (bits w 43 42 = 2 → exec (.matSlotUnpersist m w) s = .next (s.after (b.raise k 0x06 (s.blk.slot k).issuePc 3 4))))

/-- MAT.LDS, MAT.SWP, MAT.STR and MAT.SLOT: the parts named here together. -/
def Obligations.ArraysComplete : Prop :=
  Rules.StationaryTiles ∧ Rules.ActivationStream ∧ Rules.AccumulatorSlots

/-- R106, R107: an accumulator element after one activation row: the tree sum of the products, with the accumulator added unless the
stream starts, in FP32 with a window of 39 bits and in FP16 with one of 23. -/
def Obligations.AccumulatorElements : Prop :=
  ∀ (op : Operand) (w16 start : Bool) (act : List (List Val)) (prev : AccTile) (j n : Nat), j < 64 → n < 64 → act.length = 64 →
    op.hi.length = 64 → op.split = false →
    let t := (List.zipWith Val.mul (nth act [] j) (nth op.hi [] n))
    let f := if w16 then f16 else f32
    nth (accumulate op false w16 start act prev).vals 0 (64 * j + n) =
      treeSum f (if w16 then 23 else 39) (if start then t else f.decode (nth prev.vals 0 (64 * j + n)) :: t)

/-- R109: with INT8 operands the exact products are added to the INT32 or INT16 accumulator without loss; a sum outside the accumulator's
range saturates the element to the nearest end and sets the tile's saturation flag, which stays set. -/
def Obligations.IntegerAccumulation : Prop :=
  ∀ (op : Operand) (w16 start : Bool) (act : List (List Val)) (prev : AccTile) (j n : Nat), j < 64 → n < 64 → act.length = 64 →
    op.hi.length = 64 →
    let bw := if w16 then 16 else 32
    let x : Int := (List.zipWith (fun p q => (p.mul q).int) (nth act [] j) (nth op.hi [] n)).foldl (· + ·)
      (if start then 0 else sext (nth prev.vals 0 (64 * j + n)) bw)
    sext (nth (accumulate op true w16 start act prev).vals 0 (64 * j + n)) bw = max (-(2 ^ (bw - 1))) (min x (2 ^ (bw - 1) - 1)) ∧
    (x < -(2 ^ (bw - 1)) ∨ 2 ^ (bw - 1) ≤ x → (accumulate op true w16 start act prev).sat = true) ∧
    (start = false → prev.sat = true → (accumulate op true w16 start act prev).sat = true)

/-- R206, R214 to R217, R220: a drain of one array without statistics, exclusions, scale or bias, checks off: the destination frame (or
the column slot of it) holds the accumulator's values converted to the format, and the tile is released under REL. A drain of no
array does nothing. -/
def Obligations.VarnishDrain : Prop :=
  ∀ (m : Member) (w x : Word) (s : State) (k a : Nat) (d : Drain) (tile : AccTile) (pa : Nat) (r : Region),
    let b := s.blk.begun k w
    let c := s.blk.cx k w
    let sl := accIdx d.w16 d.acc
    s.blk.issuer m w 3 3 = some k → wordOk w true (0, 0) = true → rsvdOk w [(47, 19), (9, 0)] = true →
    rsvdExt x [(14, 0)] = true → drainFields w x = some d →
    (arraysOf w = [] → (d.sb = true → (b.sreg k d.sbreg).toNat % 256 = 0) → (d.stat ≠ 0 → (b.sreg k d.streg).toNat % 256 = 0) →
      (d.msk = 2 → (b.sreg k d.mreg).toNat % 512 = 0) → exec (.matDrn m w x) s = .next (s.after b)) ∧
    (arraysOf w = [a] → d.stat = 0 → d.msk = 0 → d.sb = false → d.fmt.k ≠ 32 → b.quarterOk c sl = true →
      b.fld (Reg.accChkCtrl c.die c.p) 1 0 = 0 → (b.accSlot (k / 2) a sl).useFault d.w16 d.acc = 0 →
      (b.accSlot (k / 2) a sl).tile d.w16 d.acc = some tile → drainDst c b d a % 8192 = 0 →
      wrAddr c (drainDst c b d a) 8192 b = .ok (pa, r) b → b.near c pa r = true → bit (b.reg Reg.cntCtrl) 61 = false →
      let dec (v : Nat) : Val := if tile.int then ofInt (if d.w16 then 16 else 32) v else (if d.w16 then f16 else f32).decode v
      let rows := chunk 64 64 (tile.vals.map dec)
      let outs := List.zipWith (fun i row => drainRow d (row.map (·, false)) ((List.range 64).map (fun j =>
        srDraw (s.blk.slot k).seed (drainDst c b d a % 2 ^ 42 / 128) (0x100 + 64 * a + j) i))) (List.range 64) rows
      ∃ t : Blk, exec (.matDrn m w x) s = .next (s.after t) ∧
        (d.rel = true → t.accSlot (k / 2) a sl = (b.accSlot (k / 2) a sl).drained d.w16 d.acc) ∧ (d.rel = false → t.accSlot (k / 2) a sl = b.accSlot (k / 2) a sl) ∧
        (∀ a' sl', (a', sl') ≠ (a, sl) → sl < 8 → sl' < 8 → t.accSlot (k / 2) a' sl' = b.accSlot (k / 2) a' sl') ∧
        t.slots = b.slots ∧ t.regs = b.regs ∧
        (d.fmt.k = 64 → t.mem.cells = memWrite b.mem.cells pa (padTo 8192 (d.fmt.pack (outs.flatMap (·.codes)))) ∧
          (t.fmeta (pa / 8192)).hdr = c.header d.fmt tile.sat 0) ∧
        (d.fmt.k ≠ 64 → ∀ i o, outs[i]? = some o →
          memRead t.mem.cells (pa + i * d.fmt.rowBytes + d.slot * (8 * d.fmt.bits)) (8 * d.fmt.bits) =
            natLe (8 * d.fmt.bits) (packNat d.fmt.bits o.codes)) ∧
        (d.fmt.k ≠ 64 → ∀ y, (∀ i, i < 64 → ¬ (pa + i * d.fmt.rowBytes + d.slot * (8 * d.fmt.bits) ≤ y ∧
            y < pa + i * d.fmt.rowBytes + (d.slot + 1) * (8 * d.fmt.bits))) → memRead t.mem.cells y 1 = memRead b.mem.cells y 1))

/-! ### The vector engine -/

/-- R222, R232 to R240, R248, R254, R255: the element-wise instructions: every element of the destination is the row's function of the
elements of the sources, rounded by the lane's draw where the mode asks for one, under the mask. -/
def Obligations.VecElementwise : Prop :=
  ∀ (i : Instr) (s : State) (k : Nat) (e : VecRow) (v : VecF) (ts : List Tile) (a tix : Nat),
    let b := s.blk.begun k e.w
    let c := s.blk.cx k e.w
    let n := 64 * v.fmt.k
    let m := (s.blk.slot k).mask v.mkf
    elementwise i = some e → s.blk.issuer e.m e.w 4 e.op = some k → bits e.w 52 48 = 0 → vecFields e.w e.x = some v →
    v.fmt ∈ e.fmts → bits e.w 10 0 = 0 → (∀ sp ∈ [v.a, v.b, v.c].drop e.nsrc, sp = 0) →
    (e.rneOnly = true → v.fmt = .fp32 → v.cv.rm = .rne) → b.tileDst c v.d 0 a v.fmt →
    ts.length = e.nsrc → (∀ (j : Nat) (t : Tile) (sp : Nat), ts[j]? = some t → [v.a, v.b, v.c][j]? = some sp → vecSrc c v.ext sp 0 v.fmt b = .ok t b) →
    vecTile c v 0 0 b = .ok tix b →
    let es := List.zipWith (fun vs r => e.fn v.fmt v.cv vs r) (columns .zero n (ts.map (fun t => v.fmt.values t.data [])))
      (vecDraws (s.blk.slot k).seed tix n)
    exec i s = .next (s.after (b.vecPut c v 0 a (es.map (·.1))
      (ts.any (·.sat) || (decide (v.fmt = .int32) && (keepCats m v.mrow v.fmt.k (es.map (·.2))).any (·.testBit 6))) 0))

/-- R249: VEC.MOP combines the mask registers that D, A and B name; a reserved function, a destination of m0, a reserved bit of D, A or
B, a source B of NOT and a source C fault with cause 0x0A. -/
def Obligations.MaskOperations : Prop :=
  ∀ (m : Member) (w : Word) (s : State) (k : Nat),
    let d := bits w 34 29
    let a := bits w 28 23
    let b := bits w 22 17
    let fn := bits w 10 8
    let p := (s.blk.slot k).mask a
    let q := (s.blk.slot k).mask b
    let gives (r : BitVec 256) : Prop := exec (.vecMop m w) s = .next (s.after ((s.blk.begun k w).mapSlot k (·.setM d r)))
    s.blk.issuer m w 4 0x12 = some k →
    (wordOk w false (0, 0) = true → bits w 47 44 = 0 → bits w 43 41 ≠ 7 → bits w 7 0 = 0 →
      bits w 16 11 = 0 → 1 ≤ d → d ≤ 7 → a ≤ 7 → b ≤ 7 →
      (fn = 0 → gives (p &&& q)) ∧ (fn = 1 → gives (p ||| q)) ∧ (fn = 2 → gives (p ^^^ q)) ∧ (fn = 3 → gives (p &&& ~~~q)) ∧
      (fn = 4 → b = 0 → gives (~~~p))) ∧
    (4 < fn ∨ d = 0 ∨ 7 < d ∨ 7 < a ∨ 7 < b ∨ (fn = 4 ∧ b ≠ 0) ∨ bits w 16 11 ≠ 0 →
      exec (.vecMop m w) s = .next (s.after ((s.blk.begun k w).raise k 0x0A (s.blk.slot k).issuePc 4 0x12)))

/-- R246, R247: the compares: a tile of ones and zeros in the format, or a mask register whose bit r says that any (or every)
selected element of row r compares true. A comparison with NaN is true for "not equal" and "unordered" alone. -/
def Rules.VecCompare : Prop :=
  (∀ (m : Member) (w x : Word) (s : State) (k a : Nat) (v : VecF) (ta tb : Tile),
    let b := s.blk.begun k w
    let c := s.blk.cx k w
    let mk := (s.blk.slot k).mask v.mkf
    let rs := List.zipWith (cmpVal (bits w 10 8)) (v.fmt.values ta.data []) (v.fmt.values tb.data [])
    s.blk.issuer m w 4 0xE = some k → bits w 52 48 = 0 → vecFields w x = some v → bits w 5 0 = 0 → bits w 10 8 ≠ 7 → v.c = 0 →
    v.fmt ∈ [Fmt.fp32, .int32, .bf16, .fp16, .e4m3, .e5m2] →
    vecSrc c v.ext v.a 0 v.fmt b = .ok ta b → vecSrc c v.ext v.b 0 v.fmt b = .ok tb b →
    (bits w 7 6 = 0 → b.tileDst c v.d 0 a v.fmt → exec (.vecCmp m w x) s = .next (s.after (b.vecPut c v 0 a
      (rs.map (fun q => (v.fmt.convert1 v.cv 0 (.ofInt (b2n q))).1)) (ta.sat || tb.sat) 0))) ∧
    (bits w 7 6 = 1 ∨ bits w 7 6 = 2 → 1 ≤ v.d → v.d ≤ 7 → ∃ r : BitVec 256,
      exec (.vecCmp m w x) s = .next (s.after (b.mapSlot k (·.setM v.d r))) ∧
      ∀ i, r.getLsbD i = (decide (i < 64) &&
        (let sel := (List.range v.fmt.k).filter (fun j => selected mk v.mrow (64 * v.fmt.k) v.fmt.k (i * v.fmt.k + j))
         if bits w 7 6 = 2 then sel.all (fun j => nth rs false (i * v.fmt.k + j)) else sel.any (fun j => nth rs false (i * v.fmt.k + j)))))) ∧
  (∀ (cc : Nat) (p q : Val), (p = .nan ∨ q = .nan → (cmpVal cc p q = true ↔ cc = 1 ∨ cc = 6)) ∧
    (p ≠ .nan → q ≠ .nan → (cmpVal 0 p q = !cmpVal 1 p q) ∧ (cmpVal 5 p q = !cmpVal 2 p q) ∧ (cmpVal 4 p q = !cmpVal 3 p q) ∧
      cmpVal 6 p q = false ∧ (cmpVal 3 p q = (cmpVal 2 p q || cmpVal 0 p q))))

/-- R241 to R244, R250 to R253, R256, with the census off: conversion, broadcast and normalisation deliver their tiles one after another;
`u i` is the package before tile `i`. -/
def Rules.VecConversions : Prop :=
  ∀ (m : Member) (w x : Word) (s : State) (k : Nat) (v : VecF) (a tix : Nat → Nat) (u : Nat → Blk) (old : Nat → List Val),
    let b := s.blk.begun k w
    let c := s.blk.cx k w
    let seed := (s.blk.slot k).seed
    let n := 64 * v.fmt.k
    bits w 52 48 = 0 → vecFields w x = some v → bit (b.reg Reg.cntCtrl) 61 = false → u 0 = b →
    (∀ (sf : Fmt) (ts : List Tile), s.blk.issuer m w 4 0xF = some k → Fmt.ofCode (bits w 10 7) = some sf → bits w 5 0 = 0 →
      v.b = 0 → v.c = 0 → v.fmt.isInt4 = false → (sf.isInt4 = true → v.fmt ∈ [Fmt.bf16, .e4m3, .e5m2]) →
      (sf.inReg = true ∨ (Spec.of v.a).isMem = true) → ts.length = (runCounts sf v.fmt).1 →
      (∀ (j : Nat) (t : Tile), ts[j]? = some t → vecSrc c v.ext v.a j sf b = .ok t b) →
      let cv : Conv := if sf.isInt4 then ⟨.rne, true, .floor⟩ else ⟨v.cv.rm, v.cv.sat, if bit w 6 then .fit else .floor⟩
      let rows := sideBySide sf.k (ts.map (fun t => sf.values t.data t.side))
      let empty := ts.foldl (fun e t => e ||| t.empty) 0
      (v.fmt.isMx = false → (∀ i, i < (runCounts sf v.fmt).2 → b.tileDst c v.d i (a i) v.fmt ∧ (u i).tileDst c v.d i (a i) v.fmt ∧
          vecTile c v i (i * v.fmt.k * sf.bits / 8) (u i) = .ok (tix i) (u i) ∧
          u (i + 1) = (u i).vecPut c v i (a i) ((List.zipWith (fun y r => v.fmt.convert1 cv r y) (cutCols v.fmt.k i rows)
            (vecDraws seed (tix i) n)).map (·.1)) (ts.any (·.sat)) empty) →
        exec (.vecCvt m w x) s = .next (s.after (u (runCounts sf v.fmt).2))) ∧
      (v.fmt.isMx = true → (∃ r, Spec.of v.d = .mem r) →
        let mk := (s.blk.slot k).mask v.mkf
        let part := maskedOff mk v.mrow v.fmt.k
        let sel (e : Nat) : Bool := decide (mk = -1) || selected mk v.mrow n v.fmt.k e
        let va (i : Nat) : Nat := (b.sreg k (v.d - 0x20)).toNat + i * 8192
        (∀ i, i < (runCounts sf v.fmt).2 → va i % 8192 = 0 ∧ (∃ r, wrAddr c (va i) 8192 b = .ok (a i, r) b ∧
            wrAddr c (va i) 8192 (u i) = .ok (a i, r) (u i) ∧ b.near c (a i) r = true) ∧
          vecTile c v i (i * v.fmt.k * sf.bits / 8) (u i) = .ok (tix i) (u i) ∧
          (v.mz = true → old i = List.replicate n Val.zero) ∧
          (part = true → v.mz = false → ∃ fr, rdFrame c (va i) (fun b => b.near c) (u i) = .ok fr (u i) ∧
            headerIs fr.hdr v.fmt = true ∧ old i = v.fmt.values fr.data fr.side ∧ headerIs (b.fmeta (a i / 8192)).hdr v.fmt = true) ∧
          u (i + 1) = (
            let vals := cutCols v.fmt.k i rows
            let mixed := if part then List.zipWith (fun e (p : Val × Val) => if sel e then p.1 else p.2) (List.range n) (List.zip vals (old i))
              else vals
            let o := mxTile v.fmt cv sel mixed (vecDraws seed (tix i) n)
            (u i).tilePut c v.d i (a i) v.fmt ⟨o.data, o.side, ts.any (·.sat), empty⟩)) →
        exec (.vecCvt m w x) s = .next (s.after (u (runCounts sf v.fmt).2)))) ∧
    (∀ vs : List Val, s.blk.issuer m w 4 0x10 = some k → bit w 53 = false → bits w 9 0 = 0 → v.b = 0 → v.c = 0 →
      v.fmt ∈ [Fmt.fp32, .int32, .bf16, .fp16, .e4m3, .e5m2] → b.tileDst c v.d 0 (a 0) v.fmt →
      vecVector c v.a (if bit w 10 then v.fmt.k else 64) b = .ok vs b → vecTile c v 0 0 b = .ok (tix 0) b →
      exec (.vecExpand m w x) s = .next (s.after (b.vecPut c v 0 (a 0) ((List.zipWith (fun e r =>
        v.fmt.convert1 v.cv r (nth vs .zero (if bit w 10 then e % v.fmt.k else e / v.fmt.k))) (List.range n)
        (vecDraws seed (tix 0) n)).map (·.1)) false 0))) ∧
    (∀ (sf : Fmt) (ts : List Tile) (st : List Val) (bm : List Byte), s.blk.issuer m w 4 0x11 = some k →
      v.fmt ∈ [Fmt.fp32, .bf16, .fp16, .e4m3, .e5m2] → sf ∈ [Fmt.fp32, .bf16, .fp16] → bits w 10 9 ≠ 3 → bits w 8 7 ≠ 3 → bits w 6 0 = 0 →
      (bit w 53 = true ↔ bits w 10 9 ≠ 0) → v.mkf = 0 → v.mrow = false → v.mz = false → (Spec.of v.b).isMem = true →
      (bits w 8 7 = 0 → v.c = 0) → (bits w 8 7 ≠ 0 → (Spec.of v.c).isMem = true) →
      (bits w 10 9 = 2 → bits x 63 32 ≠ 0) → (bits w 10 9 = 1 → bits x 63 32 = 0) →
      normFmt c v.a b = .ok sf b → ts.length = (runCounts sf v.fmt).1 → (∀ (j : Nat) (t : Tile), ts[j]? = some t → vecSrc c none v.a j sf b = .ok t b) →
      vecVector c v.b (if bits w 10 9 = 2 then 64 else if bits w 10 9 = 0 then 128 else 192) b = .ok st b →
      let reg := b.sreg k (v.c - 0x20)
      let kr := max sf.k v.fmt.k
      (bits w 8 7 = 2 → reg.toNat % 512 = 0 ∧ rdBytes c reg.toNat (8 * max kr 64) (fun b => b.near c) b = .ok bm b) →
      (bits w 8 7 ≠ 2 → bm = []) →
      let outs := List.zipWith (fun r row => normRow (bits w 10 9) x (nth st .zero r, nth st .zero (64 + r), nth st .zero (128 + r))
        (List.zipWith (fun j e => (e, normExcluded (bits w 8 7) reg (leNat bm) kr r j)) (List.range kr) row)) (List.range 64)
        (sideBySide sf.k (ts.map (fun t => sf.values t.data [])))
      let empty := (List.zip (List.range 64) outs).foldl (fun a p => if p.2.2 then a ||| 2 ^ p.1 else a) 0
      (∀ i, i < (runCounts sf v.fmt).2 → b.tileDst c v.d i (a i) v.fmt ∧ (u i).tileDst c v.d i (a i) v.fmt ∧
        vecTile c v i (i * v.fmt.k * sf.bits / 8) (u i) = .ok (tix i) (u i) ∧
        u (i + 1) = (u i).vecPut c v i (a i) ((List.zipWith (fun e r => v.fmt.convert1 v.cv r e) (cutCols v.fmt.k i (outs.map (·.1)))
          (vecDraws seed (tix i) n)).map (·.1)) (ts.any (·.sat)) (word empty)) →
      exec (.vecNorm m w x) s = .next (s.after (u (runCounts sf v.fmt).2)))

/-- VEC.CMP, VEC.CVT, VEC.EXPAND and VEC.NORM: the parts named here together. -/
def Obligations.VecComparesAndConversions : Prop :=
  Rules.VecCompare ∧ Rules.VecConversions

/-! ### Reduction -/

/-- R261 to R265: a reduction writes its results vectors, a combining one joined with the stored results; an addition adds a tile into
one or two tiles of the destination format, rounding to nearest even, an INT32 sum saturating. -/
def Rules.Reductions : Prop :=
  ∀ (m : Member) (w : Word) (s : State) (k : Nat) (u : Nat → Blk),
    let b := s.blk.begun k w
    let c := s.blk.cx k w
    u 0 = b → wordOk w false (0, 0) = true →
    (∀ (f : Fmt) (tile : Tile) (old : List (Val × Val × Val)) (bs : List Byte), s.blk.issuer m w 5 0 = some k →
      rsvdOk w [(47, 44), (43, 42), (41, 39), (38, 38), (37, 35), (34, 34), (33, 28), (4, 0)] = true →
      Fmt.ofCode (bits w 47 44) = some f → f ∈ [Fmt.fp32, .bf16, .fp16, .e4m3, .e5m2] →
      let dir := bits w 43 42
      let fn := bits w 41 39
      let va := (b.sreg k (bits w 4 0)).toNat
      let n := if dir = 0 then 64 else if dir = 1 then f.k else 1
      let nv := if fn = 5 then 2 else if fn = 6 then 3 else 1
      let len := 256 * (nv - 1) + 4 * n
      dir ≠ 3 → fn ≠ 7 → (fn < 5 ∨ dir = 0) → va % 256 = 0 → wrCheck c va len (fun b => b.near c) b = .ok () b →
      vecSrc c none (bits w 33 28) 0 f b = .ok tile b →
      (bit w 38 = true → rdBytes c va len (fun b => b.near c) b = .ok bs b ∧
        old = (List.range n).map (fun i => let x := f32s bs (64 * (nv - 1) + n)
          (nth x .zero i, nth x .zero (64 + i), nth x .zero (128 + i)))) →
      let mk := (s.blk.slot k).mask (bits w 37 35)
      let es := List.zipWith (fun e x => (x, selected mk (bit w 34) (64 * f.k) f.k e)) (List.range (64 * f.k)) (f.values tile.data [])
      let new := (reduceLists dir f.k es).map (reduce fn)
      let rs := if bit w 38 then List.zipWith (reduceCombine fn) old new else new
      (∀ i, i < nv → wrBytes c (va + 256 * i) (f32Bytes (f32Codes (rs.map (fun x => if i = 0 then x.1 else if i = 1 then x.2.1 else x.2.2))))
        (u i) = .ok () (u (i + 1))) →
      exec (.redRdc m w) s = .next (s.after (u nv))) ∧
    (∀ (f sf : Fmt) (tile : Tile) (ds : List Tile) (a : Nat → Nat), s.blk.issuer m w 5 1 = some k →
      rsvdOk w [(47, 44), (43, 40), (33, 28), (27, 22)] = true → Fmt.ofCode (bits w 47 44) = some f → Fmt.ofCode (bits w 43 40) = some sf →
      (sf = f ∧ f ∈ [Fmt.fp32, .bf16, .int32] ∨ f = .fp32 ∧ sf ∈ [Fmt.bf16, .fp16]) →
      let n := if sf = f then 1 else 2
      vecSrc c none (bits w 33 28) 0 sf b = .ok tile b → ds.length = n →
      (∀ (i : Nat) (d : Tile), ds[i]? = some d → vecSrc c none (bits w 27 22) i f b = .ok d b ∧ b.tileDst c (bits w 27 22) i (a i) f ∧
        (u i).tileDst c (bits w 27 22) i (a i) f ∧
        (let part := if sf = f then sf.values tile.data [] else cutCols 32 i (chunk sf.k 64 (sf.values tile.data []))
         let es := List.zipWith (fun x y => f.convert1 ⟨.rne, false, .floor⟩ 0 (x.add y)) part (f.values d.data [])
         u (i + 1) = (u i).tilePut c (bits w 27 22) i (a i) f ⟨f.pack (es.map (·.1)), [],
           tile.sat || d.sat || (decide (f = .int32) && es.any (fun e => e.2.testBit 6)), 0⟩)) →
      exec (.redAdd m w) s = .next (s.after (u n)))

/-- R261: what a reduction of a row delivers. -/
def Rules.ReductionFunctions : Prop :=
  ∀ l : List Val,
    (∀ x r, l = x :: r → (reduce 0 l).1 = ofF32 (toF32 (r.foldl Val.add x))) ∧
    (reduce 1 l).1 = l.foldl (fun x y => if x.isNan || y.isNan then .nan else if x.lt y then y else x) (.inf true) ∧
    (reduce 2 l).1 = l.foldl (fun x y => if x.isNan || y.isNan then .nan else if y.lt x then y else x) (.inf false) ∧
    (∀ x ∈ l, x ≠ .nan → (reduce 1 l).1 ≠ .nan → (reduce 1 l).1.cmp x ≥ 0) ∧
    (.nan ∈ l → (reduce 1 l).1 = .nan ∧ (reduce 2 l).1 = .nan ∧ (reduce 3 l).1 = .nan)

/-- RED.RDC and RED.ADD, and the sums and extremes they form: the parts named here together. -/
def Obligations.ReductionsComplete : Prop :=
  Rules.Reductions ∧ Rules.ReductionFunctions

/-- R266 to R268, R274, R276, R277: arming a landing, pushing tiles, and closing a landing. -/
def Rules.LandingsOpenAndClose : Prop :=
  ∀ (m : Member) (w x : Word) (s : State) (k : Nat),
    let b := s.blk.begun k w
    let c := s.blk.cx k w
    (∀ (f : Fmt) (pas : List Nat) (recs : List Nat), s.blk.issuer m w 5 2 = some k → wordOk w true (0, 0) = true →
      rsvdOk w [(47, 45), (44, 41), (40, 40), (39, 34), (31, 16), (9, 5), (4, 0)] = true →
      rsvdExt x [(63, 50), (49, 18), (9, 0)] = true → Fmt.ofCode (bits w 44 41) = some f → f ∈ [Fmt.fp32, .bf16, .int32] →
      let j := bits w 47 45
      let va := (b.sreg k (bits w 9 5)).toNat
      let rec' := (b.sreg k (bits w 4 0)).toNat
      let tiles := bits x 9 0 + 1
      bits w 31 16 ≠ 0 → ((s.blk.slot k).land j).st ≠ .armed → rec' % 64 = 0 → va % 8192 = 0 →
      b.ownsSync c.part (bits x 63 50) = true → pas.length = tiles →
      (∀ (i pa : Nat), pas[i]? = some pa → translate c.part (va + i * 8192) .wr b = .ok pa b ∧ (b.resolve pa).1 = pa ∧
        b.pinned pa = false ∧ ∃ r, wrAddr c (va + i * 8192) 8192 b = .ok (pa, r) b ∧ b.near c pa r = true) →
      wordAddrs c rec' (2 + tiles) b = .ok recs b →
      (∀ y ∈ b.clusterLands c.die (c.p / 4), y.2.2.st = .armed → ∀ pa ∈ pas, pa / 8192 ∉ y.2.2.frames) →
      let l : Landing := {
        st := .armed, frames := pas.map (· / 8192), fmt := f, ltag := BitVec.ofNat 16 (bits w 31 16), expect := bits w 39 34 + 1,
        init := bit w 40, recPas := recs, obj := bits x 63 50, value := bits x 49 18, bits := List.replicate tiles 0 }
      ∃ t : Blk, exec (.redArm m w x) s = .next (s.after t) ∧ (t.slot k).land j = l ∧
        (∀ j', j' < 8 → j' ≠ j → (t.slot k).land j' = (s.blk.slot k).land j') ∧ ∀ k', k' ≠ k → t.slot k' = s.blk.slot k') ∧
    (∀ (f : Fmt) (dst : List Nat) (fs : List Frame), s.blk.issuer m w 5 3 = some k → wordOk w false (0, 0) = true →
      rsvdOk w [(47, 44), (39, 34), (33, 28), (27, 20), (14, 10), (9, 5)] = true → Fmt.ofCode (bits w 47 44) = some f →
      f ∈ [Fmt.fp32, .bf16, .fp16, .int32] →
      let n := bits w 27 20 + 1
      let va := (b.sreg k (bits w 9 5)).toNat
      va % 8192 = 0 → dst.length = n → fs.length = n →
      (∀ (i pa : Nat), dst[i]? = some pa → translate c.part (va + i * 8192) .wr b = .ok pa b ∧
        ∃ a r, wrAddr c (va + i * 8192) 8192 b = .ok (a, r) b ∧ (r.clusterOf.map (·.1)) = some c.die) →
      (∀ (i : Nat) (g : Frame), fs[i]? = some g → pushSrc c (bits w 33 28) i f b = .ok g b) →
      let arr (p : Nat × Frame) : Arrival := ⟨p.1, BitVec.ofNat 16 (b.sreg k (bits w 14 10)).toNat, BitVec.ofNat 6 (bits w 39 34),
        BitVec.ofNat 4 f.code, none, p.2, none, some (Fin.ofNat 2 c.die, Fin.ofNat 20 c.p)⟩
      exec (.redPush m w) s = .next (s.after { b with
        nextId := b.nextId + n
        outst := b.outst ++ (List.range n).map (fun i => ⟨b.nextId + i, k, (s.blk.slot k).ctx, .push⟩)
        flights := b.flights ++ List.zipWith (fun i p => ⟨b.nextId + i, k, arr p⟩) (List.range n) (List.zip dst fs) })) ∧
    (s.blk.issuer m w 5 4 = some k → wordOk w false (0, 0) = true → rsvdOk w [(47, 45)] = true →
      let j := bits w 47 45
      let l := (s.blk.slot k).land j
      (l.st ≠ .armed → exec (.redCls m w) s = .next (s.after b)) ∧
      (l.st = .armed → l.init = false → l.coll = none → b.ownsSync c.part l.obj = true → l.obj < 16384 → (s.blk.slots.map (·.1)).Nodup →
        ∃ t : Blk, exec (.redCls m w) s = .next (s.after t) ∧ (t.slot k).land j = { l with st := .closed } ∧
          t.syncVal l.obj = s.blk.syncVal l.obj + word l.value))

/-- R269 to R273, R277, R643, R649: what an arriving tile does. -/
def Rules.TileArrivals : Prop :=
  ∀ (x : Arrival) (s : State) (a d q : Nat) (r : Region) (sf : Fmt),
    let b := s.blk
    let cover := (b.clusterLands d q).filter (fun y => decide (y.2.2.st ≠ .none) && y.2.2.frames.contains (a / 8192))
    b.resolve x.addr = (a, r) → b.heldStore r = false → x.pusher = none → Fmt.ofCode x.sfmt.toNat = some sf → r.clusterOf = some (d, q) →
    (cover = [] → x.tag ≠ 0 → exec (.tileArrival x) s = .next (s.after b)) ∧
    (∀ (d0 : Frame) (st : Nat) (f : Fmt), cover = [] → x.tag = 0 → b.pinned a = false → b.resolve a = (a, r) →
      readFrameAt a r false b = .ok (d0, st) b → Fmt.ofCode d0.hdr.fmt.toNat = some f → headerIs d0.hdr f = true → sf = f →
      f ∈ [Fmt.fp32, .bf16, .int32] → (∀ g, x.dfmt = some g → g.toNat = f.code) →
      let es := List.zipWith (fun p y => f.convert1 ⟨.rne, false, .floor⟩ 0 (p.add y)) (sf.values x.f.data []) (f.values d0.data [])
      exec (.tileArrival x) s = .next (s.after ((b.putBytes a (padTo 8192 (f.pack (es.map (·.1))))).setFmeta (a / 8192) {
        hdr := {
          d0.hdr with
          fmt := BitVec.ofNat 4 f.code, klog2 := BitVec.ofNat 4 f.klog2,
          sat := d0.hdr.sat || x.f.hdr.sat || (decide (f = .int32) && es.any (fun e => e.2.testBit 6)),
          poison := d0.hdr.poison || x.f.hdr.poison || decide (st ≠ 0) }
        side := d0.side }))) ∧
    (∀ (k j : Nat) (l : Landing), cover = [(k, j, l)] → (l.ltag ≠ x.tag ∨ (l.ltag = x.tag ∧ l.st ≠ .armed)) → k < 80 →
      ∃ t : Blk, exec (.tileArrival x) s = .next (s.after t) ∧
        t.fld (Reg.vecRedCnt (keyDie k) (keyPhys k)) 31 0 = satAdd 32 (b.fld (Reg.vecRedCnt (keyDie k) (keyPhys k)) 31 0) 1 ∧
        (l.ltag ≠ x.tag → t.mem = b.mem ∧ t.slots = b.slots)) ∧
    (∀ (k j t : Nat) (l : Landing), cover = [(k, j, l)] → l.st = .armed → l.ltag = x.tag → l.admitted = none → l.origin = none →
      sf = l.fmt → (∀ g, x.dfmt = some g → g.toNat = l.fmt.code) → t = l.frames.idxOf (a / 8192) → k < 80 → j < 8 →
      t < l.bits.length → (nth l.bits 0 t).testBit x.idx.toNat = false →
      ({ l with bits := setNth l.bits t (nth l.bits 0 t ||| 2 ^ x.idx.toNat) } : Landing).full = false →
      ∃ t' : Blk, exec (.tileArrival x) s = .next (s.after t') ∧
        (t'.slot k).land j = { l with bits := setNth l.bits t (nth l.bits 0 t ||| 2 ^ x.idx.toNat), poison := l.poison || x.f.hdr.poison } ∧
        t'.fld (Reg.vecRedCnt (keyDie k) (keyPhys k)) 63 32 = satAdd 32 (b.fld (Reg.vecRedCnt (keyDie k) (keyPhys k)) 63 32) 1)

/-- RED.ARM, RED.PUSH, RED.CLS, and what an arriving tile does: the parts named here together. -/
def Obligations.LandingsAndArrivals : Prop :=
  Rules.LandingsOpenAndClose ∧ Rules.TileArrivals

/-! ### Moves, fences and stage queues -/

/-- R321 to R323: MOVE.TILE copies tiles with their headers, or converts them as VEC.CVT does, one after another (`u i` is the package
before destination tile `i`); MOVE.GATHER puts together the rows that its indices name, a negative one giving an empty row of zeros. -/
def Rules.TileMoves : Prop :=
  ∀ (m : Member) (w : Word) (s : State) (k : Nat) (f : Fmt) (u : Nat → Blk),
    let b := s.blk.begun k w
    let c := s.blk.cx k w
    let d := bits w 34 29
    let a := bits w 28 23
    let wh := moveWhere c d a
    u 0 = b → wordOk w false (0, 0) = true → Fmt.ofCode (bits w 47 44) = some f →
    (∀ (sf : Fmt) (rm : RM) (fs : Nat → List Frame) (tix : Nat → Nat), s.blk.issuer m w 2 0 = some k →
      rsvdOk w [(47, 44), (43, 40), (39, 37), (36, 36), (35, 35), (34, 29), (28, 23), (22, 16)] = true →
      Fmt.ofCode (bits w 43 40) = some sf → RM.ofCode (bits w 39 37) = some rm →
      (f.inReg = true ∨ (Spec.of d).isMem = true) → (sf.inReg = true ∨ (Spec.of a).isMem = true) →
      let reps := bits w 22 16 + 1
      (f = sf → (∀ i, i < reps → wrTileCheck c d i wh b = .ok () b) →
        (∀ j, j < reps → ∃ g, moveSrc c a j sf wh (u j) = .ok g (u j) ∧ movePut c d j f g (u j) = .ok () (u (j + 1))) →
        exec (.moveTile m w) s = .next (s.after (u reps))) ∧
      (f ≠ sf → f.isInt4 = false → (sf.isInt4 = true → f ∈ [Fmt.bf16, .e4m3, .e5m2]) →
        let nr := (runCounts sf f).1
        let nw := (runCounts sf f).2
        let cv : Conv := if sf.isInt4 then ⟨.rne, true, .floor⟩ else ⟨rm, bit w 36, if bit w 35 then .fit else .floor⟩
        let v : VecF := ⟨f, cv, 0, false, false, d, a, 0, 0, none⟩
        (∀ i, i < reps * nw → wrTileCheck c d i wh b = .ok () b) →
        (∀ j, j < reps → (fs j).length = nr ∧
          (∀ (i : Nat) (g : Frame), (fs j)[i]? = some g → moveSrc c a (j * nr + i) sf wh (u (j * nw)) = .ok g (u (j * nw))) ∧
          ∀ i, i < nw → vecTile c v (j * nw + i) (j * nr * 8192 + i * f.k * sf.bits / 8) (u (j * nw + i)) = .ok (tix (j * nw + i)) (u (j * nw + i)) ∧
            (let rows := sideBySide sf.k ((fs j).map (fun x => sf.values x.data x.side))
             let o := f.encode cv (cutCols f.k i rows) (vecDraws (s.blk.slot k).seed (tix (j * nw + i)) (64 * f.k))
             wrTile c d (j * nw + i) f ⟨o.data, o.side, (fs j).any (·.hdr.sat), (fs j).foldl (fun e x => e ||| x.hdr.empty) 0⟩ (u (j * nw + i)) =
               .ok () (u (j * nw + i + 1)))) →
        (∀ j, ((u j).slot k).seed = (s.blk.slot k).seed) → (∀ j, bit ((u j).reg Reg.cntCtrl) 61 = false) →
        exec (.moveTile m w) s = .next (s.after (u (reps * nw))))) ∧
    (∀ (idx : List Int) (rows : List (List Byte × List Byte × Bool)), s.blk.issuer m w 2 1 = some k →
      rsvdOk w [(47, 44), (34, 29), (28, 23), (9, 5), (4, 0)] = true → f.isInt4 = false → (f.inReg = true ∨ (Spec.of d).isMem = true) →
      wrTileCheck c d 0 wh b = .ok () b → gatherIdx c a wh b = .ok idx b → rows.length = idx.length →
      (∀ (i : Nat) (x : Int) (r : List Byte × List Byte × Bool), idx[i]? = some x → rows[i]? = some r →
        (x < 0 → r = (List.replicate f.rowBytes 0, List.replicate (f.k / 32) 0, false)) ∧
        (0 ≤ x → ∃ fr, rdFrame c (((b.sreg k (bits w 9 5)).toNat + x.toNat / 64 * (b.sreg k (bits w 4 0)).toNat) % 2 ^ 64) wh b = .ok fr b ∧
          headerIs fr.hdr f = true ∧ r = (((padTo 8192 fr.data).drop (x.toNat % 64 * f.rowBytes)).take f.rowBytes,
            ((padTo 512 fr.side).drop (x.toNat % 64 * (f.k / 32))).take (f.k / 32), fr.hdr.sat))) →
      let empty := (List.zip (List.range 64) idx).foldl (fun e x => if x.2 < 0 then e ||| 2 ^ x.1 else e) 0
      wrTile c d 0 f ⟨padTo 8192 (rows.map (·.1)).flatten, if f.isMx then (rows.map (·.2.1)).flatten else [], rows.any (·.2.2),
        word empty⟩ b = .ok () (u 1) →
      exec (.moveGather m w) s = .next (s.after (u 1)))

/-- R308 to R313, R320, R324: an arrival fence lets the member go on when the object is Fast at the version, and else makes it wait and
counts it; a release drops the redirect entries of its object; a deadline turns a read-through wait into a redirect entry, or faults
with 0x07 when the member holds two. -/
def Rules.ArrivalFences : Prop :=
  ∀ (m : Member) (w : Word) (s : State) (k : Nat),
    let b := s.blk.begun k w
    let id := BitVec.ofNat 32 (b.sreg k (bits w 9 5)).toNat
    let ver := (b.sreg k (bits w 4 0)).toNat % 2 ^ 32
    (∀ o : Obj, s.blk.issuer m w 2 2 = some k → bit w 46 = false → wordOk w false (0, 0) = true →
      rsvdOk w [(47, 47), (46, 46), (45, 30), (9, 5), (4, 0)] = true → getObj id b = .ok o b →
      (o.shared = true ∨ o.owner = (s.blk.slot k).part.toNat) →
      ((o.st = 2 ∧ 0 ≤ diff32 o.version ver) → exec (.moveAfn m w) s = .next (s.after b)) ∧
      (¬ (o.st = 2 ∧ 0 ≤ diff32 o.version ver) → ∃ t : Blk, exec (.moveAfn m w) s = .next (s.after t) ∧
        (t.slot k).wait = .fence id ver (bit w 47 && !o.wb) ∧ (t.slot k).waitFrom = s.blk.aon.elapsed ∧
        ((b.resolve (o.addr + 0x28)).2.isTier = true → o.addr % 64 = 0 → b.Clean → b.BuffersOk → b.MemOk →
          (∀ i, i < 64 → (b.resolve (o.addr + i)) = (o.addr + i, (b.resolve o.addr).2)) → b.pins = [] →
          (∀ i, i < 2 → t.byteAt (o.addr + 0x2E + i) = nth (natLe 2 (min (o.waiters + 1) 65535)) 0 i)))) ∧
    (s.blk.issuer m w 2 2 = some k → bit w 46 = true → bit w 47 = false → bits w 45 30 = 0 → wordOk w false (0, 0) = true →
      rsvdOk w [(47, 47), (46, 46), (45, 30), (9, 5), (4, 0)] = true →
      exec (.moveAfnRelease m w) s = .next (s.after (b.mapSlot k (fun r =>
        { r with redirects := r.redirects.filter (fun x => decide (x.obj ≠ id)) })))) ∧
    (∀ (obj : BitVec 32) (v : Nat) (o : Obj), s.blk.memberKey m = some k → (s.blk.slot k).wait = .fence obj v true →
      (s.blk.slot k).st = .run → getObj obj s.blk = .ok o s.blk →
      ∃ t : Blk, exec (.afnDeadlineExpiry m) s = .next (s.after t) ∧ (t.slot k).wait = .none ∧
        ((s.blk.slot k).redirects.length < 2 → (t.slot k).st = .run ∧
          (t.slot k).redirects = (s.blk.slot k).redirects ++ [⟨obj, o.fast, o.slow, o.frames⟩]) ∧
        (2 ≤ (s.blk.slot k).redirects.length → (t.slot k).st = .stop ∧
          ((s.blk.slot k).flt = none → ((t.slot k).flt.map (·.cause)) = some 7)))

/-- MOVE.TILE, MOVE.GATHER, MOVE.AFN, its release and its deadline: the parts named here together. -/
def Obligations.TileMovesAndFences : Prop :=
  Rules.TileMoves ∧ Rules.ArrivalFences

/-- R315 to R319: the stage queues: frames that hold no credit wait with their member, and leave when credits arrive; a pop takes the
oldest frames of the segment; an arriving frame goes to the segment, else to the ring, else is dropped; freed slots go back as credits. -/
def Rules.StageQueues : Prop :=
  (∀ (m : Member) (w : Word) (s : State) (k n : Nat) (e : SqEnd) (ws : List Word) (fs : List Frame),
    let b := s.blk.begun k w
    let c := s.blk.cx k w
    let b1 := (b.setSq n (some { e with sends := e.sends ++ fs.map (fun f => (f, k)) })).mapSlot k (fun r =>
      { r with wait := .credit n, waitFrom := s.blk.aon.elapsed })
    s.blk.issuer m w 2 3 = some k → wordOk w false (0, 0) = true → rsvdOk w [(47, 42), (28, 23), (22, 16)] = true →
    sqUse c (bits w 47 42) false b = .ok (n, e, ws) b → fs.length = bits w 22 16 + 1 →
    (∀ (i : Nat) (f : Frame), fs[i]? = some f → sqSrc c (bits w 28 23) i b = .ok f b) → sqWords n b1 = .ok ws b1 →
    (bits (nth ws 0 4) 31 0 = 0 → ∃ t : Blk, exec (.moveQsend m w) s = .next (s.after t) ∧ t.sqs = b1.sqs ∧ (t.slot k).wait = .credit n) ∧
    (0 < bits (nth ws 0 4) 31 0 → e.sends = [] → fs.length = 1 → ∃ t : Blk, exec (.moveQsend m w) s = .next (s.after t) ∧
      (t.slot k).wait = .none ∧ t.sq n = some e)) ∧
  (∀ (m : Member) (w : Word) (s : State) (k n : Nat) (e : SqEnd) (ws : List Word) (u : Nat → Blk),
    let b := s.blk.begun k w
    let c := s.blk.cx k w
    let d := bits w 34 29
    let num := bits w 22 16 + 1
    s.blk.issuer m w 2 4 = some k → wordOk w false (0, 0) = true → rsvdOk w [(47, 42), (34, 29), (22, 16)] = true →
    sqUse c (bits w 47 42) true b = .ok (n, e, ws) b → num ≤ e.segN → e.ringN = 0 → u 0 = b →
    (∀ i, i < num → wrTileCheck c d i (fun _ _ _ => true) b = .ok () b ∧ ∃ f g,
      readFrameAt ((u i).resolve (sqSeg ws (e.segHd + i))).1 ((u i).resolve (sqSeg ws (e.segHd + i))).2 false (u i) = .ok (f, 0) (u i) ∧
      Fmt.ofCode f.hdr.fmt.toNat = some g ∧ (g.inReg = true ∨ (Spec.of d).isMem = true) ∧ movePut c d i g f (u i) = .ok () (u (i + 1)) ∧
      (u (i + 1)).sqs = (u i).sqs) →
    ∃ t : Blk, exec (.moveQpop m w) s = .next (s.after t) ∧ t.slots = (u num).slots ∧
      t.sq n = some { e with segHd := (e.segHd + num) % max 1 (bits (nth ws 0 1) 5 0), segN := e.segN - num, owed := e.owed + num }) ∧
  (∀ (die : Fin 2) (q : Fin 64) (f : Frame) (s : State) (e : SqEnd) (ws : List Word) (b1 : Blk),
    let n := die.val * 64 + q.val
    s.blk.sq n = some e → e.recv = true → sqWords n s.blk = .ok ws s.blk → stageTaken ws s.blk = .ok () b1 → b1.sqs = s.blk.sqs →
    let seg := bits (nth ws 0 1) 5 0
    let ring := bits (nth ws 0 3) 15 0
    ∃ t : Blk, exec (.sqFrameArrival die q f) s = .next (s.after t) ∧
      (e.ringN = 0 → e.segN < seg → t.sq n = some { e with segN := e.segN + 1 }) ∧
      ((e.ringN ≠ 0 ∨ seg ≤ e.segN) → e.ringN < ring → t.sq n = some { e with ringN := e.ringN + 1 }) ∧
      ((e.ringN ≠ 0 ∨ seg ≤ e.segN) → ring ≤ e.ringN → t.sq n = some e)) ∧
  (∀ (die : Fin 2) (q : Fin 64) (s : State) (e : SqEnd) (ws : List Word),
    let n := die.val * 64 + q.val
    s.blk.sq n = some e →
    ((e.recv = false ∨ e.owed = 0) → exec (.sqCreditReturn die q) s = .next (s.after s.blk)) ∧
    (e.recv = true → 0 < e.owed → sqWords n s.blk = .ok ws s.blk → ∃ t : Blk, exec (.sqCreditReturn die q) s = .next (s.after t) ∧
      t.sq n = some { e with owed := 0 })) ∧
  (∀ (die : Fin 2) (q : Fin 64) (num : Nat) (s : State) (e : SqEnd) (ws : List Word) (b1 b2 : Blk),
    let n := die.val * 64 + q.val
    s.blk.sq n = some e → e.recv = false → e.sends = [] → sqWords n s.blk = .ok ws s.blk → stageTaken ws s.blk = .ok () b1 →
    (b1.resolve (b1.sqAddr n + 0x20)).2.isTier = true →
    writePa ⟨none⟩ (b1.sqAddr n + 0x20) (natLe 8 (setBits (nth ws 0 4) 31 0 (min (bits (nth ws 0 4) 31 0 + num) (2 ^ 32 - 1))).toNat) b1 =
      .ok () b2 → b2.sq n = some e →
    exec (.sqCreditArrival die q num) s = .next (s.after { b2 with slots := b2.slots.map (fun ks =>
      if ks.2.wait = .credit n then (ks.1, { ks.2 with wait := .none }) else ks) }))

/-- R315, R316: opening and closing an end of a stage queue. -/
def Rules.StageQueueEnds : Prop :=
  ∀ (src : Src) (qend : BitVec 7) (peer : Nat) (s : State) (ws : List Word) (q : QpSt),
    let b := s.blk.setReg Reg.memPlcSts (setBits (s.blk.reg Reg.memPlcSts) 31 0 0)
    let done (st : Nat) (t : Blk) : Blk := (t.setFld Reg.memPlcSts 55 48 st).setFld Reg.memPlcSts 63 63 0
    let n := qend.toNat
    let w0 := nth ws 0 0
    let part := bits w0 57 48
    bit (s.blk.reg Reg.memPlcSts) 63 = false → bit (s.blk.reg Reg.memPlcBase) 0 = true →
    (sqWords n b = .ok ws b → s.blk.sq n = none → bit (b.reg (Reg.memSqBase (n / 64))) 0 = true → b.qp (bits w0 47 32) = some q →
      q.err = none → q.part = part →
      (bit w0 63 = false → exec (.sqopen src qend peer) s = .next (s.after (done 0
        (((tableWrite 3 (b.sqAddr n + 0x20) (word (peer % 2 ^ 32)) n).exec' b).setSq n (some ⟨false, [], 0, 0, 0, 0, 0⟩))))) ∧
      (bit w0 63 = true → bits (nth ws 0 1) 5 0 ≠ 0 →
        (∀ i, i < bits (nth ws 0 1) 5 0 → ∃ d p, (b.resolve (bits (nth ws 0 1) 47 13 * 8192 + i * 8192)).2 = .store d p) →
        (bits (nth ws 0 3) 15 0 = 0 ∨ ∃ d, (b.resolve (bits (nth ws 0 2) 47 13 * 8192)).2 = .hbm d ∧
          (b.resolve (bits (nth ws 0 2) 47 13 * 8192 + (bits (nth ws 0 3) 15 0 - 1) * 8192)).2 = .hbm d) →
        (b.ownsSync part (bits (nth ws 0 3) 45 32) = true → exec (.sqopen src qend peer) s = .next (s.after (done 0
          (((tableWrite 3 (b.sqAddr n + 0x28) 0 n).exec' b).setSq n (some ⟨true, [], 0, 0, 0, 0, 0⟩))))) ∧
        (b.ownsSync part (bits (nth ws 0 3) 45 32) = false → exec (.sqopen src qend peer) s = .next (s.after (done 0x02 b))))) ∧
    (s.blk.sq n = none → exec (.sqclose src qend) s = .next (s.after (done 0x0A b))) ∧
    ((s.blk.sq n).isSome = true → ∃ t : Blk, exec (.sqclose src qend) s = .next (s.after t) ∧ t.sq n = none ∧
      t.fld Reg.memPlcSts 63 63 = 0 ∧ t.fld Reg.memPlcSts 55 48 = 0 ∧
      (∀ k, (s.blk.slot k).wait = .credit n → (t.slot k).wait = .none) ∧ ∀ n', n' ≠ n → t.sq n' = s.blk.sq n')

/-- Stage queues: opening, sending, popping, arrivals, credits, closing: the parts named here together. -/
def Obligations.StageQueuesComplete : Prop :=
  Rules.StageQueues ∧ Rules.StageQueueEnds

/-! ### Placement -/

/-- A placement command while another is under way is ignored; with placement off it ends with 0x0A; else MEM_PLC_STS names its object
and its status (R293, R336, R337). The commands: CREATE and DESTROY charge and credit the owner's DDR5 quota and make the descriptor
valid or not (R296, R297); RECLAIM makes a Falling object Slow (R299, R301); CHARGE and CREDIT change a quota (R305). -/
def Rules.PlacementCommands : Prop :=
  ∀ (src : Src) (obj : BitVec 32) (part : BitVec 10) (s : State) (o : Obj) (b1 : Blk),
    let b := s.blk.setReg Reg.memPlcSts (setBits (s.blk.reg Reg.memPlcSts) 31 0 obj.toNat)
    let done (st : Nat) (t : Blk) : Blk := (t.setFld Reg.memPlcSts 55 48 st).setFld Reg.memPlcSts 63 63 0
    (bit (s.blk.reg Reg.memPlcSts) 63 = true → exec (.create src obj) s = .next (s.after s.blk) ∧
      exec (.destroy src obj) s = .next (s.after s.blk) ∧ exec (.reclaim src obj) s = .next (s.after s.blk)) ∧
    (bit (s.blk.reg Reg.memPlcSts) 63 = false → bit (s.blk.reg Reg.memPlcBase) 0 = false →
      exec (.create src obj) s = .next (s.after (done 0x0A b))) ∧
    (bit (s.blk.reg Reg.memPlcSts) 63 = false → bit (s.blk.reg Reg.memPlcBase) 0 = true →
      (readObj obj b = .ok o b → o.gen = bits (word obj.toNat) 31 20 →
        (o.valid = true → exec (.create src obj) s = .next (s.after (done 0x0A b))) ∧
        (o.valid = false → o.frames ≠ 0 → o.slow + o.frames * 8192 ≤ b.top 2 → hbmBase o.die ≤ o.fast →
          o.fast + o.frames * 8192 ≤ b.top o.die → chargeQuota o.owner true (o.frames * 8192) b = .ok () b1 →
          exec (.create src obj) s = .next (s.after (done 0 ((putState { o with
            valid := true, version := 0, target := 0, waiters := 0, claims := 0, charged := false, wbp := false, wbl := false } 0).exec'
              b1))))) ∧
      (getObj obj b = .ok o b →
        (o.st ≠ 0 ∨ o.claims ≠ 0 ∨ o.waiters ≠ 0 → exec (.destroy src obj) s = .next (s.after (done 0x0A b))) ∧
        (o.st = 0 → o.claims = 0 → o.waiters = 0 → creditQuota o.owner true (o.frames * 8192) b = .ok () b1 →
          exec (.destroy src obj) s = .next (s.after (done 0 ((putObj { o with valid := false }).exec' b1)))) ∧
        (o.st = 3 → o.charged = false → o.waiters = 0 →
          exec (.reclaim src obj) s = .next (s.after (done 0 ((putState o 0).exec' b)))) ∧
        (o.st ≠ 3 ∨ o.charged = true ∨ o.waiters ≠ 0 → exec (.reclaim src obj) s = .next (s.after (done 0x0A b)))) ∧
      (∀ (ddr : Bool) (lim used : Word), obj = 0 → bit (b.reg Reg.memQuotaBase) 0 = true →
        readWord (b.quotaAddr part.toNat ddr) b = .ok lim b → readWord (b.quotaAddr part.toNat ddr + 8) b = .ok used b →
        let n := (b.reg Reg.memPlcArg).toNat
        let a := b.quotaAddr part.toNat ddr + 8
        (used.toNat + n ≤ lim.toNat → exec (.charge src part ddr) s = .next (s.after (done 0
          ((tableWrite 2 a (word (used.toNat + n)) part.toNat).exec' b)))) ∧
        (lim.toNat < used.toNat + n → exec (.charge src part ddr) s = .next (s.after (done 9 b))) ∧
        (n ≤ used.toNat → exec (.credit src part ddr) s = .next (s.after (done 0
          ((tableWrite 2 a (word (used.toNat - n)) part.toNat).exec' b)))) ∧
        (used.toNat < n → exec (.credit src part ddr) s = .next (s.after (done 0x0A b)))))

/-- R298 to R304: PROMOTE and EVICT, by the object's state, and the ends of the copies they start. -/
def Rules.ResidencyCompletes : Prop :=
  ∀ (src : Src) (obj : BitVec 32) (part : BitVec 10) (s : State) (o o1 o2 : Obj) (b1 b2 : Blk),
    let b := s.blk.setReg Reg.memPlcSts (setBits (s.blk.reg Reg.memPlcSts) 31 0 obj.toNat)
    let done (st : Nat) (t : Blk) : Blk := (t.setFld Reg.memPlcSts 55 48 st).setFld Reg.memPlcSts 63 63 0
    let p := part.toNat
    let v := b.fld Reg.memPlcArg 31 0
    (bit (s.blk.reg Reg.memPlcSts) 63 = false → bit (s.blk.reg Reg.memPlcBase) 0 = true → getObj obj b = .ok o b →
      (o.shared = true ∨ o.owner = p) →
      (b.partOn p = true → o.st = 0 → b.linkDown o.die = false → takeCharge o b = .ok o1 b1 → addClaim o1 p b1 = .ok o2 b2 →
        ∃ t : Blk, exec (.promote src part obj) s = .next (s.after t) ∧ t.fld Reg.memPlcSts 63 63 = 1 ∧
          (t.residOf obj true).isSome = true ∧ t.slots = b2.slots) ∧
      (b.partOn p = true → o.st = 0 → b.linkDown o.die = true → exec (.promote src part obj) s = .next (s.after (done 0x0E b))) ∧
      (b.partOn p = true → o.st = 2 → (diff32 v o.version ≤ 0 ∨ o.wb = true) → addClaim o p b = .ok o1 b1 →
        wakeFences { o1 with version := if o.wb = true ∧ 0 < diff32 v o.version then v else o.version, st := 2 } b1 = .ok o2 b2 →
        o1.wb = o.wb → o1.version = o.version →
        exec (.promote src part obj) s = .next (s.after (done 0 ((putObj o2).exec' b2)))) ∧
      (b.partOn p = false → exec (.promote src part obj) s = .next (s.after (done 0x02 b))) ∧
      (hasClaim o p b = .ok false b → exec (.evict src part obj) s = .next (s.after (done 0 b))) ∧
      (hasClaim o p b = .ok true b → setClaim o p false b = .ok o1 b1 →
        (o1.st ≠ 2 ∨ o1.claims ≠ 0 → exec (.evict src part obj) s = .next (s.after (done 0 ((putObj o1).exec' b1)))) ∧
        (o1.st = 2 → o1.claims = 0 → o1.wb = false → dropCharge o1 b1 = .ok o2 b2 →
          exec (.evict src part obj) s = .next (s.after (done 0 ((putState o2 3).exec' b2)))) ∧
        (o1.st = 2 → o1.claims = 0 → o1.wb = true → b.linkDown o1.die = false →
          ∃ t : Blk, exec (.evict src part obj) s = .next (s.after t) ∧ (t.residOf obj false).isSome = true ∧
            t.fld Reg.memPlcSts 63 63 = 0))) ∧
    (s.blk.hold = false → getObj obj s.blk = .ok o s.blk → s.blk.linkDown o.die = false →
      (∀ r, s.blk.residOf obj true = some r → o.st = 1 → o.claims ≠ 0 → (s.blk.slots.map (·.1)).Nodup → ∃ t : Blk,
        exec (.residencyCopyComplete obj) s = .next (s.after t) ∧ t.residOf obj true = none ∧
        (∀ k v rt, (s.blk.slot k).wait = .fence obj v rt → 0 ≤ diff32 o.target v → (t.slot k).wait = .none) ∧
        (r.pend = [.reg] → t.fld Reg.memPlcSts 63 63 = 0 ∧ t.fld Reg.memPlcSts 55 48 = 0)) ∧
      (∀ r, s.blk.residOf obj false = some r → ∃ t : Blk,
        exec (.writebackComplete obj) s = .next (s.after t) ∧ t.residOf obj false = none ∧ t.slots = s.blk.slots)) ∧
    (s.blk.hold = true → getObj obj s.blk = .ok o s.blk →
      exec (.residencyCopyComplete obj) s = .next (s.after s.blk) ∧ exec (.writebackComplete obj) s = .next (s.after s.blk))

/-- CREATE, DESTROY, RECLAIM, CHARGE, CREDIT, PROMOTE, EVICT and the ends of their copies: the parts named here together. -/
def Obligations.PlacementCompletes : Prop :=
  Rules.PlacementCommands ∧ Rules.ResidencyCompletes

/-! ### Copies -/

/-- R326 to R331: an XFER command whose ranges check joins the engine that it names (AUTO: one of the least loaded four), as an operation
of its member under way; a full engine keeps the member waiting. -/
def Rules.CopiesQueue : Prop :=
  ∀ (m : Member) (w x : Word) (pl : List Word) (s : State) (k : Nat) (rd rs : Option Region) (comp : Comp) (e : Nat),
    let b := s.blk.begun k w
    let c := s.blk.cx k w
    let dst := (b.sreg k (bits w 4 0)).toNat
    let n := (b.sreg k (bits w 14 10)).toNat
    let out := (rd.bind (copySide c)).getD false
    let dir := (rd.map Region.dir).getD 0
    let base := 8 * c.die + 4 * b2n out
    let load (j : Nat) : Nat := ((b.eng j).map (·.bytes)).sum
    let gives (kind : CopyKind) (i : Instr) : Prop :=
      (bit w 45 = false → e = base + bits w 47 46 → (b.eng e).length < 64 → exec i s = .next (s.after (Blk.setEng { b with
        nextId := b.nextId + 1, outst := b.outst ++ [Outst.mk b.nextId k (s.blk.slot k).ctx (.copy (decide (dir = 2)))] } e
          (b.eng e ++ [CopyCmd.mk comp kind dst dir])))) ∧
      (bit w 45 = false → e = base + bits w 47 46 → 64 ≤ (b.eng e).length → exec i s = .next (s.after s.blk)) ∧
      (bit w 45 = true → (∀ j, base ≤ j → j < base + 4 → (b.eng j).length < 64) → ∃ (a : Nat) (t : Blk),
        base ≤ a ∧ a < base + 4 ∧ (∀ j, base ≤ j → j < base + 4 → load a ≤ load j) ∧ exec i s = .next (s.after t) ∧
        t.eng a = b.eng a ++ [CopyCmd.mk comp kind dst dir] ∧ (∀ j, j ≠ a → t.eng j = b.eng j) ∧ t.nextId = b.nextId + 1 ∧
        t.outst = b.outst ++ [Outst.mk b.nextId k (s.blk.slot k).ctx (.copy (decide (dir = 2)))])
    (s.blk.issuer m w 6 0 = some k → wordOk w true (0, 0) = true → copyExtOk x = true →
      rsvdOk w [(47, 46), (45, 45), (44, 44), (43, 43), (42, 42), (41, 41), (14, 10), (9, 5), (4, 0)] = true →
      let src := (b.sreg k (bits w 9 5)).toNat
      let al := if bit w 44 then 8192 else 64
      let len := if bit w 44 then n * 8192 else n
      src % al = 0 → dst % al = 0 → (bit w 44 = false → n % 64 = 0) → copyCheck c dst len .wr b = .ok rd b →
      copyCheck c src len .rd b = .ok rs b → (len = 0 ∨ rd.bind (copySide c) ≠ rs.bind (copySide c)) →
      (bit w 44 = true → rd ≠ some .pcie ∧ rs ≠ some .pcie) →
      compOf c x (bit w 43) (bit w 41) (bit w 42) b.nextId b = .ok comp b → gives (.copy (bit w 44) src n) (.xferCopy m w x)) ∧
    (s.blk.issuer m w 6 1 = some k → wordOk w false (1, 24) = true → rsvdOk w [(47, 46), (45, 45), (42, 42), (12, 5), (4, 0)] = true →
      let len := bits w 12 5 + 1
      len ≤ 8 * bits w 52 48 → dst % 8 = 0 → copyCheck c dst len .wr b = .ok rd b →
      compOf c 0 false false (bit w 42) b.nextId b = .ok comp b →
      gives (.copyi ((padTo (8 * bits w 52 48) (wordsBytes pl)).take len)) (.xferCopyi m w pl)) ∧
    (s.blk.issuer m w 6 2 = some k → wordOk w true (0, 0) = true → copyExtOk x = true →
      rsvdOk w [(47, 46), (45, 45), (44, 41), (40, 40), (39, 39), (14, 10), (4, 0)] = true →
      (Fmt.ofCode (bits w 44 41)).isSome = true → dst % 8192 = 0 → copyCheck c dst (n * 8192) .wr b = .ok rd b →
      (∀ r, rd = some r → r.isTier = true) → compOf c x false (bit w 39) (bit w 40) b.nextId b = .ok comp b →
      gives (.gesso (bits w 44 41) n) (.xferGesso m w x))

/-- R333, R337: XFER.PLACE lets its member go on at once, and completes with the status of the placement command, which faults the
stream unless it asked for none; with placement off the status is 0x0A. -/
def Rules.PlaceFromStream : Prop :=
  ∀ (m : Member) (w : Word) (s : State) (k : Nat),
    let b := s.blk.begun k w
    let c := s.blk.cx k w
    let id := b.nextId
    let b1 : Blk := { b with nextId := id + 1, outst := b.outst ++ [⟨id, k, (s.blk.slot k).ctx, .place⟩] }
    let obj := BitVec.ofNat 32 (b.sreg k (bits w 9 5)).toNat
    let v := (b.sreg k (bits w 4 0)).toNat % 2 ^ 32
    let comp : Comp := { id := id, slot := k, ctx := c.ctx, part := c.part, pc := c.pc, word := w, layer := c.layer, oper := c.oper,
                         nofault := bit w 44 }
    s.blk.issuer m w 6 3 = some k → wordOk w false (0, 0) = true → rsvdOk w [(47, 45), (44, 44), (9, 5), (4, 0)] = true →
    (bit (b.reg Reg.memPlcBase) 0 = true →
      (bits w 47 45 = 0 →
        (∀ t, promote obj c.part v (.member comp) b1 = .ok none t → exec (.xferPlacePromote m w) s = .next (s.after t)) ∧
        (∀ st t, promote obj c.part v (.member comp) b1 = .ok (some st) t →
          exec (.xferPlacePromote m w) s = .next (s.after ((completeCmd comp c.die st 0).exec' t)))) ∧
      (bits w 47 45 = 1 → ∀ t, evict obj c.part b1 = .ok () t →
        exec (.xferPlaceEvict m w) s = .next (s.after ((completeCmd comp c.die 0 0).exec' t)))) ∧
    (bit (b.reg Reg.memPlcBase) 0 = false → bit w 44 = false → (s.blk.slot k).flt = none →
      (bits w 47 45 = 0 → ∃ t : Blk, exec (.xferPlacePromote m w) s = .next (s.after t) ∧ (t.slot k).st = .stop ∧
        ((t.slot k).flt.map (·.cause)) = some 0x0A) ∧
      (bits w 47 45 = 1 → ∃ t : Blk, exec (.xferPlaceEvict m w) s = .next (s.after t) ∧ (t.slot k).st = .stop ∧
        ((t.slot k).flt.map (·.cause)) = some 0x0A))

/-- R331 to R334, R371: the oldest command of an engine moves its data and completes: a frame copy copies the frame with its header,
poison carried over; an immediate stores its bytes; GESSO writes frames of zeros. One that crosses a link that is down ends with
0x0E, which faults its stream unless it asked for none. It waits while the drain holds it or, with FLAG or SIG, for earlier writes. -/
def Rules.CopyEnds : Prop :=
  ∀ (die : Fin 2) (eng : Fin 8) (s : State) (x : CopyCmd) (r : List CopyCmd) (a : Nat) (rg : Region),
    let e := die.val * 8 + eng.val
    let b := s.blk.setEng e r
    let over' (t : Blk) : Blk := ({ t with outst := t.outst.filter (fun o => decide (o.id ≠ x.comp.id)) }).wakeScopes
    s.blk.eng e = x :: r →
    ((s.blk.hold = true ∧ x.crosses = true) ∨ ((x.comp.flag.isSome = true ∨ x.comp.sig.isSome = true) ∧ s.blk.earlierWrites x = true) →
      exec (.copyComplete die eng) s = .next (s.after s.blk)) ∧
    (s.blk.hold = false → x.held s.blk = false → x.comp.flag = none → x.comp.sig = none → x.comp.crec = none →
      (x.crosses = true → s.blk.linkDown die.val = true → x.comp.nofault = false → (s.blk.slot x.comp.slot).bound = true →
        (s.blk.slot x.comp.slot).ctx = x.comp.ctx → (s.blk.slot x.comp.slot).flt = none →
        ∃ t : Blk, exec (.copyComplete die eng) s = .next (s.after t) ∧ t.eng e = r ∧ (∀ o ∈ t.outst, o.id ≠ x.comp.id) ∧
          (t.slot x.comp.slot).st = .stop ∧ ((t.slot x.comp.slot).flt.map (fun f => (f.cause, f.pc))) = some (0x0E, x.comp.pc)) ∧
      (s.blk.linkDown die.val = false → copyTarget die.val x.comp.part x.dst .wr (match x.kind with
          | .copyi bs => bs.length
          | _ => 8192) b = .ok (a, rg) b → rg.isStore = true →
        (∀ src a' r' f, x.kind = .copy true src 1 → copyTarget die.val x.comp.part src .rd 8192 b = .ok (a', r') b →
          readFrameAt a' r' false b = .ok (f, 0) b →
          exec (.copyComplete die eng) s = .next (s.after (over' ((b.putBytes a (padTo 8192 f.data)).setFmeta (a / 8192)
            { hdr := { f.hdr with poison := false }, side := f.side })))) ∧
        (∀ bs, x.kind = .copyi bs → x.dst % 8192 + bs.length ≤ 8192 → bs ≠ [] →
          exec (.copyComplete die eng) s = .next (s.after (over' (b.putBytes a bs)))))) ∧
    (∀ fmt f, s.blk.hold = false → x.held s.blk = false → x.comp.flag = none → x.comp.sig = none → x.comp.crec = none →
      s.blk.linkDown die.val = false → x.kind = .gesso fmt 1 → Fmt.ofCode fmt = some f →
      copyTarget die.val x.comp.part x.dst .wr 8192 b = .ok (a, rg) b → rg.isTier = true → b.Clean → b.BuffersOk → b.MemOk →
      (b.resolve a) = (a, rg) → a % 8192 = 0 →
      ∃ t : Blk, exec (.copyComplete die eng) s = .next (s.after t) ∧ t.eng e = r ∧ (∀ o ∈ t.outst, o.id ≠ x.comp.id) ∧
        ((t.fmeta (a / 8192)).hdr.fmt.toNat = fmt ∧ (t.fmeta (a / 8192)).hdr.poison = false) ∧ t.unwritten (a / 8192) = false ∧
        ∀ y, t.byteAt y = if a ≤ y ∧ y < a + 8192 then 0 else s.blk.byteAt y)

/-- XFER.COPY, COPYI, GESSO and PLACE: how they queue and what they do when they complete: the parts named here together. -/
def Obligations.CopiesComplete : Prop :=
  Rules.CopiesQueue ∧ Rules.PlaceFromStream ∧ Rules.CopyEnds

/-! ### Memory controllers -/

/-- R343, R348, R351 to R362: reads of a tier answer the newest bytes, a frame or part of a frame that is written reads as written and
every other byte as before, and closing a merge entry changes what no reader sees. -/
def Obligations.TierReadsAndWrites : Prop :=
  ∀ (pa a : Nat) (r : Region) (s : State),
    s.blk.resolve pa = (a, r) → r.isTier = true → s.blk.Clean → s.blk.BuffersOk → s.blk.MemOk →
    let f := a / 8192
    (∀ lines, s.blk.unwritten f = false → (s.blk.fmeta f).hdr.poison = false → s.blk.mem.poisonLines = [] →
      let n := min lines (128 - a % 8192 / 64)
      0 < n → ∃ t : Blk, exec (.memoryLineRead pa lines []) s = .next (s.after t) ∧
        t.host.resp = (List.range (64 * n)).map (fun i => s.blk.byteAt (a / 64 * 64 + i)) ∧ t.host.busPoison = false ∧
        ∀ y, t.byteAt y = s.blk.byteAt y) ∧
    (s.blk.unwritten f = false → ∃ t : Blk, exec (.memoryFrameRead pa []) s = .next (s.after t) ∧
      t.host.resp.take 8192 = (List.range 8192).map (fun i => s.blk.byteAt (a / 8192 * 8192 + i)) ∧
      t.host.busPoison = (s.blk.fmeta f).hdr.poison ∧ (∀ y, t.byteAt y = s.blk.byteAt y) ∧ t.entry f = none) ∧
    (s.blk.unwritten f = true → s.blk.entry f = none → s.blk.mem.hostDirty = [] → ∃ t : Blk,
      exec (.memoryFrameRead pa []) s = .next (s.after t) ∧ t.host.busPoison = true ∧ (∀ y, t.byteAt y = s.blk.byteAt y) ∧
      t.fld (Reg.eccCnt (s.blk.source (f * 8192) r)) 47 36 = satAdd 12 (s.blk.fld (Reg.eccCnt (s.blk.source (f * 8192) r)) 47 36) 1) ∧
    (∀ x : Frame, s.blk.pinned a = false → ∃ t : Blk, exec (.wholeFrameWrite pa x) s = .next (s.after t) ∧
      (t.fmeta f).hdr = x.hdr ∧ (t.fmeta f).side = x.side ∧ t.unwritten f = false ∧
      ∀ y, t.byteAt y = if y / 8192 = f then nth x.data 0 (y % 8192) else s.blk.byteAt y) ∧
    (∀ x : Frame, s.blk.pinned a = true → exec (.wholeFrameWrite pa x) s = .next (s.after s.blk)) ∧
    (∀ bs : List Byte, bs ≠ [] → a % 8192 + bs.length ≤ 8192 → s.blk.pinned a bs.length = false → ∃ t : Blk,
      exec (.subFrameWrite pa bs) s = .next (s.after t) ∧
      ∀ y, t.byteAt y = if a ≤ y ∧ y < a + bs.length then nth bs 0 (y - a) else s.blk.byteAt y) ∧
    (∀ (c : Fin 16) (e : MergeEntry), s.blk.entry f = some e → e.ctl = c.val → ∃ t : Blk,
      exec (.mergeWindowExpiry c f) s = .next (s.after t) ∧ t.entry f = none ∧ ∀ y, t.byteAt y = s.blk.byteAt y)

/-- R347 to R349, R364 to R369: storage errors that the frame's code covers are corrected and counted, more than it covers poison the
frame and set the source's uncorrectable bit. -/
def Rules.StorageErrors : Prop :=
  ∀ (pa a : Nat) (r : Region) (flips : List Nat) (s : State),
    let f := a / 8192
    let b1 := (addFlips a flips).exec' s.blk
    let v := codeView (b1.fmeta f).errs
    let n := s.blk.source (f * 8192) r
    s.blk.resolve pa = (a, r) → r.isTier = true → s.blk.mem.hostDirty = [] → s.blk.mem.merge = [] → s.blk.unwritten f = false →
    v.syndrome = true →
    (v.erased + 2 * v.symErrs ≤ levelSymbols (s.blk.level r) → ∃ t : Blk, exec (.memoryFrameRead pa flips) s = .next (s.after t) ∧
      (t.fmeta f).errs = [] ∧ t.mem.cells = s.blk.mem.cells ∧ (t.fmeta f).hdr = (s.blk.fmeta f).hdr ∧
      t.fld (Reg.eccCnt n) 23 0 = satAdd 24 (s.blk.fld (Reg.eccCnt n) 23 0) 1 ∧
      (let level := satAdd 16 (s.blk.fld (Reg.eccCnt n) 63 48) 1
       (level ≤ s.blk.fld Reg.eccBucketCtrl 15 0 → t.fld (Reg.eccCnt n) 63 48 = level ∧ t.reg Reg.eccSts = s.blk.reg Reg.eccSts) ∧
       (s.blk.fld Reg.eccBucketCtrl 15 0 < level → t.fld (Reg.eccCnt n) 63 48 = 0 ∧ (t.reg Reg.eccSts).getLsbD n = true))) ∧
    (levelSymbols (s.blk.level r) < v.erased + 2 * v.symErrs → ∃ t : Blk, exec (.memoryFrameRead pa flips) s = .next (s.after t) ∧
      (t.fmeta f).errs = [] ∧ (t.fmeta f).hdr.poison = true ∧ t.host.busPoison = true ∧ (t.reg Reg.eccSts).getLsbD (32 + n) = true ∧
      t.fld (Reg.eccCnt n) 35 24 = satAdd 12 (s.blk.fld (Reg.eccCnt n) 35 24) 1)

/-- R365, R368, R372 to R376: the leak of the buckets, a write of ECC_BUCKET_CTRL, and the two scrubbers. -/
def Rules.ScrubbersAndBuckets : Prop :=
  ∀ s : State,
    (s.blk.fld Reg.eccBucketCtrl 47 32 = 0 → exec .bucketLeak s = .next (s.after s.blk)) ∧
    (s.blk.fld Reg.eccBucketCtrl 47 32 ≠ 0 → ∃ t : Blk, exec .bucketLeak s = .next (s.after t) ∧
      (∀ n, n ≤ 20 → t.fld (Reg.eccCnt n) 63 48 = s.blk.fld (Reg.eccCnt n) 63 48 - 1 ∧
        t.fld (Reg.eccCnt n) 47 0 = s.blk.fld (Reg.eccCnt n) 47 0) ∧
      ∀ off, (∀ n, n ≤ 20 → off ≠ Reg.eccCnt n) → t.reg off = s.blk.reg off) ∧
    (∀ (src : Src) (v : Word), (src = .control ∨ bit (s.blk.reg Reg.secPolicy) 0 = true) → ∃ t : Blk,
      exec (.eccBucketCtrlWrite src v) s = .next (s.after t) ∧ t.reg Reg.eccBucketCtrl = v &&& 0x0000FFFF0003FFFF ∧
      t.host.imsic = (let old := s.blk.reg Reg.eccBucketCtrl
        if (bit old 17 = false ∧ bit v 17 = true ∧ s.blk.fld Reg.eccSts 52 32 ≠ 0) ∨
          (bit old 16 = false ∧ bit v 16 = true ∧ s.blk.fld Reg.eccSts 20 0 ≠ 0) then (s.blk.msiSource 2).host.imsic else s.blk.host.imsic)) ∧
    (bit (s.blk.reg Reg.eccScrubCtrl) 0 = false → ∀ flips, exec (.scrubFrame flips) s = .next (s.after s.blk)) ∧
    (bit (s.blk.reg Reg.eccScrubCtrl) 0 = true → s.blk.dozing = false →
      let i := s.blk.fld Reg.eccScrubSts 31 30
      let n := s.blk.fld Reg.eccScrubSts 29 0
      let f := (s.blk.resolve (scrubAddr i n)).1 / 8192
      ((s.blk.fmeta f).errs = [] → s.blk.mem.hostDirty = [] → i < 3 → ∃ t : Blk, exec (.scrubFrame []) s = .next (s.after t) ∧ t.mem.cells = s.blk.mem.cells ∧
        (n + 1 < s.blk.scrubFrames i → n < 2 ^ 30 - 1 → t.fld Reg.eccScrubSts 29 0 = n + 1 ∧ t.fld Reg.eccScrubSts 31 30 = i) ∧
        (s.blk.scrubFrames i ≤ n + 1 → t.fld Reg.eccScrubSts 29 0 = 0 ∧ t.fld Reg.eccScrubSts 31 30 = (i + 1) % 3))) ∧
    (∀ e : SramError, bit (s.blk.reg Reg.eccScrubCtrl) 1 = true → e.source ≤ 20 → ∃ t : Blk,
      exec (.scrubSram e) s = .next (s.after t) ∧
      (e.uncorrectable = true → (t.reg Reg.eccSts).getLsbD (32 + e.source) = true ∧
        t.fld (Reg.eccCnt e.source) 35 24 = satAdd 12 (s.blk.fld (Reg.eccCnt e.source) 35 24) 1) ∧
      (e.uncorrectable = false → t.fld (Reg.eccCnt e.source) 23 0 = satAdd 24 (s.blk.fld (Reg.eccCnt e.source) 23 0) 1)) ∧
    (∀ e : SramError, bit (s.blk.reg Reg.eccScrubCtrl) 1 = false → exec (.scrubSram e) s = .next (s.after s.blk))

/-- Storage errors, their counts, the leaky buckets and the scrubbers: the parts named here together. -/
def Obligations.ErrorsAndScrubbers : Prop :=
  Rules.StorageErrors ∧ Rules.ScrubbersAndBuckets

/-! ### Updates of the weights -/

/-- R387, R401, R408: a well-formed program of 512 bytes enters its slot; UNPIN removes the pin of a block and step that the partition (or
partition 0) holds. -/
def Rules.ProgramsAndPins : Prop :=
  ∀ (m : Member) (w : Word) (s : State) (k : Nat),
    let b := s.blk.begun k w
    let c := s.blk.cx k w
    (∀ (bs : List Byte) (p : Prog), s.blk.issuer m w 7 0 = some k → wordOk w false (0, 0) = true → rsvdOk w [(47, 46), (4, 0)] = true →
      (b.sreg k (bits w 4 0)).toNat % 512 = 0 → rdBytes c (b.sreg k (bits w 4 0)).toNat 512 (fun b => b.ownLocal c) b = .ok bs b →
      progOf (blockWords 64 bs) = some p →
      exec (.updProg m w) s = .next (s.after (b.mapSlot k (fun r => { r with progs := r.progs.setIfInBounds (bits w 47 46) (some p) })))) ∧
    (∀ (pa a : Nat) (r : Region) (p : Pin), s.blk.issuer m w 7 3 = some k → wordOk w false (0, 0) = true →
      rsvdOk w [(9, 5), (4, 0)] = true → (b.sreg k (bits w 9 5)).toNat % 128 = 0 →
      translate c.part (b.sreg k (bits w 9 5)).toNat .rd b = .ok pa b → engineAddr ⟨some c.die⟩ pa b = .ok (a, r) b →
      let step := (b.sreg k (bits w 4 0)).toNat % 2 ^ 32
      let mine (q : Pin) : Bool := decide (q.blk = a ∧ q.step = step ∧ (c.part = q.part ∨ c.part = 0))
      (p ∈ b.pins → mine p = true → exec (.updUnpin m w) s = .next (s.after { b with pins := b.pins.filter (fun q => !mine q) })) ∧
      ((∀ q ∈ b.pins, mine q = false) → exec (.updUnpin m w) s = .next (s.after (b.raise k 0x0A (s.blk.slot k).issuePc 7 3))))

/-- R402 to R413: a RUN whose operands check pins its frames, computes its weight tiles one after another (`v t` is the package
before tile t, `q t` what the tile adds to Q), and stands as a run of its member until it commits. -/
def Rules.UpdateRuns : Prop :=
  ∀ (m : Member) (w x : Word) (s : State) (k : Nat) (o : Obj) (u : RunCx) (gacc flag : Option Nat) (ra e : Nat) (b1 : Blk)
    (v : Nat → Blk) (q : Nat → Val),
    let b := s.blk.begun k w
    let c := s.blk.cx k w
    let va := (b.sreg k (bits w 9 5)).toNat
    let near := decide (o.uplace = 2)
    let nf := if u.p.fact then u.k.eighths else 0
    s.blk.issuer m w 7 1 = some k → runOk w = true → bits w 45 44 ≠ 3 → u.x = x → u.s = (b.sreg k (bits w 4 0)).toNat % 2 ^ 32 →
    ((b.slot k).progs.toList[bits w 47 46]?).getD none = some u.p →
    readShard c va b = .ok u.k b → readShard c va s.blk = .ok u.k s.blk → shardObj c u.k b = .ok o b → shardObj c u.k s.blk = .ok o s.blk →
    u.k.ok = true → b.runBusy u.k.pa = false → (∀ y ∈ b.pins, y.blk ≠ u.k.pa ∨ y.step = u.s) → (o.uplace = 2 ∨ o.uplace < 2 ∧ o.st = 2) →
    (u.k.sig = true → b.ownsSync c.part u.k.sobj = true) → b.runInputs c o u gacc flag ra →
    takePin c u.k u.s ((u.grads ++ u.stats).map (fun y => y.1 / 8192)) (ra, if u.k.rvalid then
      16 + 8 * max (bits (u.k.w 0x08) 63 48 + u.k.gcnt) (bits (u.k.w 0x30) 63 48 + nf) else 0) b = .ok () b1 →
    let b2 := (blockPut (u.k.pa + 0x58) 4 0).exec' b1
    let id := b2.nextId
    runScale u.k (bits w 45 44) u.ns u.grads b2 = .ok u.sc b2 →
    v 0 = { b2 with nextId := id + 1, outst := b2.outst ++ [⟨id, k, c.ctx, .run⟩] } →
    (∀ t, t < u.k.tiles → (if near then nearTile c u t else runTile c u id t) (v t) = .ok (q t) (v (t + 1))) →
    let b3 := v u.k.tiles
    let mir := u.k.mirror && !near
    let un := b3.col.unacked.map (fun y => if u.sts.any (fun z => decide (z.1 = y.pa)) then { y with run := id } else y)
    let run : RunSt := {
      id := id, slot := k, ctx := c.ctx, part := c.part, die := c.die, blk := u.k.pa, step := u.s, flag := flag,
      gacc := gacc.map (fun a => (a, toF32 ((List.range u.k.tiles).foldl (fun z t => z.add (q t)) .zero))),
      sobj := if u.k.sig then some (u.k.sobj, word (bits (u.k.w 0x48) 49 18)) else none,
      acked := !mir || (b3.mirrorOn && !un.any (fun y => decide (y.run = id))), unmir := mir && !b3.mirrorOn }
    exec (.updRun m w x) s = .next (s.after { b3 with
      runs := b3.runs ++ [run], col := if mir then { b3.col with unacked := un } else b3.col })

/-- R411, R413, R450: a commit releases the pin of the member's oldest run; one that waits for no partner ends there, with its
signal; one whose mirror frames are not acknowledged stays and waits; a Near run waits while the drain holds DDR5 writes. -/
def Rules.RunCommits : Prop :=
  ∀ (m : Member) (s : State) (k : Nat) (r : RunSt),
    s.blk.memberKey m = some k → s.blk.runs = [r] → r.slot = k → r.waits = false →
    (r.flag.isSome = true → s.blk.hold = true → exec (.runCommit m) s = .next (s.after s.blk)) ∧
    (r.flag = none → r.gacc = none → (r.acked = false ∧ r.unmir = false) → exec (.runCommit m) s = .next (s.after { s.blk with
      pins := s.blk.pins.filter (fun p => !decide (p.blk = r.blk ∧ p.step = r.step)), runs := [{ r with waits := true }] })) ∧
    (r.flag = none → (r.acked = true ∨ r.unmir = true) → ∃ t : Blk, exec (.runCommit m) s = .next (s.after t) ∧
      t.pins = s.blk.pins.filter (fun p => !decide (p.blk = r.blk ∧ p.step = r.step)) ∧ t.runs = [] ∧ (∀ y ∈ t.outst, y.id ≠ r.id) ∧
      (∀ obj u, r.sobj = some (obj, u) → s.blk.syncOwner obj = some r.part → obj < 16384 → t.syncVal obj = s.blk.syncVal obj + u))

/-- R414, R415: a snapshot of a group whose frames carry the stamp goes, converted, as writes over the queue pair between the two
partitions (log entries 43, 45). -/
def Rules.SnapshotsSend : Prop :=
  ∀ (m : Member) (w x : Word) (s : State) (k n : Nat) (kb : Shard) (o : Obj) (f : Fmt) (sts : List (Nat × Region)) (gs : Nat → List Frame)
    (comp : Comp),
    let b := s.blk.begun k w
    let c := s.blk.cx k w
    let ver := (b.sreg k (bits w 4 0)).toNat % 2 ^ 32
    let lay4 := Config.snapPack4 b.free
    let per := if lay4 then 8 else 4
    let fld := if bit w 43 then 0 else 3
    let b1 : Blk := { b with free := b.free + 1 }
    s.blk.issuer m w 7 2 = some k → wordOk w true (0, 0) = true → rsvdOk w [(47, 44), (43, 43), (9, 5), (4, 0)] = true →
    Fmt.ofCode (bits w 47 44) = some f → (f = .fp32 ∨ f = .bf16) → gOff x % 8192 = 0 →
    readShard c (b.sreg k (bits w 9 5)).toNat b = .ok kb b → b.runBusy kb.pa = false → shardObj c kb b = .ok o b →
    stateFrames c kb o (per * kb.tiles) false b1 = .ok sts b1 →
    (∀ y ∈ sts, ∀ h, b1.peek y.1 y.2 = some h → h.stamp.toNat = ver) → b1.gLocal c.part x = false → snapQp c x b1 = .ok n b1 →
    remComp c 0 ⟨false, false, false, false⟩ b1.nextId b1 = .ok comp b1 → remRoom c n b1 = .ok () b1 →
    (∀ t, t < kb.tiles → ((sts.drop (per * t)).take per).mapM goodFrame b1 = .ok (gs t) b1) →
    let frames := (List.range kb.tiles).flatMap (fun t =>
      snapFrames c f ver ((gs t).flatMap (fun y => (packedField lay4 y.data fld).map (packedVal lay4 fld))))
    let ps := marks (List.zipWith (fun i y => ({ op := 0x01, cls := 6, len := 8768, frame := some y, addr := x + word (8192 * i) } : Packet))
      (List.range frames.length) frames)
    exec (.updSnap m w x) s = .next (s.after ((postCmd n { comp := comp, kind := .write, die := c.die, left := 0, status := 0 }
      (ps.map (fun p => (p, none)))).exec' { b1 with
        nextId := b1.nextId + 1, outst := b1.outst ++ [⟨b1.nextId, k, c.ctx, .remote⟩] }))

/-- UPD.PROG, UPD.UNPIN, UPD.RUN, its commit, and UPD.SNAP (log entries 43 and 45): the parts named here together. -/
def Obligations.UpdateCommands : Prop :=
  Rules.ProgramsAndPins ∧ Rules.UpdateRuns ∧ Rules.RunCommits ∧ Rules.SnapshotsSend

/-- R389 to R392: what one parameter becomes: nothing changes where no gradient arrived; else each field that the program writes takes its
operand, FP32 or rounded to BF16 with the lane's draws, and the others keep theirs. -/
def Obligations.ParameterUpdate : Prop :=
  ∀ (p : Prog) (x : Word) (w m v a : Nat) (g e : Val) (n : Nat) (draw : Nat → Nat),
    (param p x [w, m, v, a] g e 0 draw).fields = [w, m, v, a] ∧
    (0 < n →
      let old (i : Nat) (y : Nat) : Val := if p.lay4 = true ∨ i = 0 then ofF32 y else bf16.decode y
      let env := p.run (p.env x (old 0 w) (old 1 m) (packedVal p.lay4 2 v) (old 3 a) g e (.ofInt n))
      let out := param p x [w, m, v, a] g e n draw
      out.w = nth env .zero 0 ∧ nth out.fields 0 0 = (if p.writes 0 = true then toF32 (nth env .zero 0) else w) ∧
      (p.lay4 = true → ∀ i y, [w, m, v, a][i]? = some y → nth out.fields 0 i = if p.writes i = true then toF32 (nth env .zero i) else y) ∧
      (p.lay4 = false →
        nth out.fields 0 1 = (if p.writes 1 = true then (bf16.convert ((RM.ofCode p.mrm).getD .rne) false (draw 0) (nth env .zero 1)).1 else m) ∧
        nth out.fields 0 3 = (if p.writes 3 = true then
          (bf16.convert ((RM.ofCode p.mrm).getD .rne) false (draw (if p.writes 1 = true then 1 else 0)) (nth env .zero 3)).1 else a))) ∧
    (∀ (u : UStep) (l : List UStep) (env : List Val), ({ p with steps := u :: l } : Prog).run env =
      ({ p with steps := l } : Prog).run (setNth env u.d (upResult u.op (nth env .zero u.a) (nth env .zero u.b) (nth env .zero u.c)))) ∧
    (∀ y z t : Val, upResult 0x01 y z t = fadd y z ∧ upResult 0x03 y z t = fmul y z ∧ upResult 0x04 y z t = rne32 ((y.mul z).add t) ∧
      upResult 0x05 y z t = rne32 (((rne32 (z.add y.neg)).mul t).add y) ∧ upResult 0x0F y z t = if t.isZero = true then z else y)

/-! ### Remote operations -/

/-- R553 to R566: each remote operation of a member reads its sources, forms its packets, and either is served in its own partition or
joins its queue pair; it is under way until it completes. -/
def Obligations.RemoteOperations : Prop :=
  ∀ (m : Member) (w x : Word) (pl : List Word) (s : State) (k n : Nat) (comp : Comp) (l : List (Nat × Region × Nat))
    (ps : List (Packet × Option Nat)) (st : Nat),
    let b := s.blk.begun k w
    let c := s.blk.cx k w
    let r (i : Nat) : Word := b.sreg k i
    let gives (i : Instr) (f : RemBits) (g : Word) (kind : RemKind) (want : Nat) : Prop :=
      remExtOk x f = true → remComp c x f b.nextId b = .ok comp b →
      let ms := (marks (ps.map (·.1))).map (fun p =>
        if p.last ∧ f.rsig then { p with opnd1 := word (bits x 49 36 <<< 50 ||| bits x 35 20) } else p)
      let rc : RemCmd := { comp := comp, kind := kind, die := c.die, left := 0, want := if ps.isEmpty then 0 else want, status := st }
      let b1 : Blk := { b with nextId := b.nextId + 1, outst := b.outst ++ [⟨b.nextId, k, c.ctx, .remote⟩] }
      (b.gLocal c.part g = false → remQp c w g b = .ok n b → remRoom c n b = .ok () b → exec i s = .next (s.after
        ((postCmd n rc (List.zipWith (fun p q => (p, q.2)) ms ps)).exec' b1))) ∧
      (b.gLocal c.part g = true → comp.flag = none → comp.sig = none → ∀ st' moved t, localGo c rc ms b1 = .ok (st', moved) t →
        exec i s = .next (s.after ((completeCmd comp c.die (if st' = 0 then st else st') moved).exec' t)))
    (s.blk.issuer m w 6 8 = some k → wordOk w true (0, 0) = true →
      rsvdOk w [(47, 47), (46, 46), (45, 45), (44, 44), (43, 43), (19, 15), (14, 10), (9, 5), (4, 0)] = true →
      let f : RemBits := ⟨bit w 46, bit w 45, bit w 44, bit w 43⟩
      let g := r (bits w 4 0)
      let va := (r (bits w 9 5)).toNat
      let len := (r (bits w 14 10)).toNat
      let p : Packet := { op := if bit w 43 then 0x02 else 0x01, cls := if bit w 43 then 3 else 4 }
      (bit w 47 = true → gOff g % 8192 = 0 → va % 8192 = 0 → remRange c va (len * 8192) .rd b = .ok l b →
        srcFrames c g 8192 p (l.map (fun q => (q.1, q.2.1))) b = .ok (ps, st) b → gives (.xferRwrite m w x) f g .write 0) ∧
      (bit w 47 = false → gOff g % 64 = 0 → va % 64 = 0 → len % 64 = 0 → remRange c va len .rd b = .ok l b →
        srcBytes c g va len p b = .ok (ps, st) b → gives (.xferRwrite m w x) f g .write 0)) ∧
    (s.blk.issuer m w 6 9 = some k → wordOk w true (1, 24) = true →
      rsvdOk w [(46, 46), (45, 45), (44, 44), (43, 43), (40, 33), (19, 15), (4, 0)] = true →
      let g := r (bits w 4 0)
      let len := bits w 40 33 + 1
      let p : Packet := {
        op := if bit w 43 then 0x02 else 0x01, cls := if bit w 43 then 3 else 4, addr := g, len := BitVec.ofNat 16 len,
        bytes := (padTo (8 * bits w 52 48) (wordsBytes pl)).take len }
      len ≤ 8 * bits w 52 48 → gOff g % 8 = 0 → ps = [(p, none)] → st = 0 →
      gives (.xferRwritei m w x pl) ⟨bit w 46, bit w 45, bit w 44, bit w 43⟩ g .write 0) ∧
    (s.blk.issuer m w 6 0xA = some k → wordOk w true (0, 0) = true →
      rsvdOk w [(47, 47), (46, 46), (45, 45), (44, 44), (19, 15), (14, 10), (9, 5), (4, 0)] = true →
      let g := r (bits w 9 5)
      let va := (r (bits w 4 0)).toNat
      let num := (r (bits w 14 10)).toNat
      let al := if bit w 47 then 8192 else 64
      let len := if bit w 47 then num * 8192 else num
      let p : Packet := { op := 0x03, cls := 4, addr := g, opnd0 := word len, opnd1 := word (b2n (bit w 47)) }
      gOff g % al = 0 → va % al = 0 → (bit w 47 = false → num % 64 = 0) → remRange c va len .wr b = .ok l b →
      ps = (if len = 0 then [] else [(p, none)]) → st = 0 →
      gives (.xferRread m w x) ⟨bit w 46, bit w 45, bit w 44, false⟩ g (.read (bit w 47) va len) len) ∧
    (s.blk.issuer m w 6 0xB = some k → wordOk w true (0, 0) = true →
      rsvdOk w [(47, 46), (45, 45), (44, 44), (42, 40), (29, 25), (24, 20), (19, 15), (14, 10), (4, 0)] = true →
      let g := r (bits w 4 0)
      let aop := bits w 47 46
      let t := bits w 42 40
      let ret := (r (bits w 29 25)).toNat
      let p : Packet := {
        op := 0x05, cls := 3, addr := g, aux := BitVec.ofNat 32 (aop <<< 30 ||| t <<< 27), opnd0 := r (bits w 14 10),
        opnd1 := r (bits w 24 20) }
      atomOk aop t = true → gOff g % atomSize t = 0 → (bits w 29 25 ≠ 0 → ret % 8 = 0 ∧ remRange c ret 8 .wr b = .ok l b) →
      ps = [(p, none)] → st = 0 →
      gives (.xferRatom m w x) ⟨false, bit w 45, bit w 44, false⟩ g (.atomic (if bits w 29 25 ≠ 0 then some ret else none) (atomSize t)) 1) ∧
    (∀ df sf : Fmt, s.blk.issuer m w 6 0xC = some k → wordOk w true (0, 0) = true →
      rsvdOk w [(47, 44), (43, 40), (39, 39), (38, 38), (37, 37), (36, 36), (35, 28), (24, 20), (19, 15), (9, 5), (4, 0)] = true →
      Fmt.ofCode (bits w 47 44) = some df → Fmt.ofCode (bits w 43 40) = some sf → addPair sf df = true →
      let g := r (bits w 4 0)
      let va := (r (bits w 9 5)).toNat
      let tv := if bits w 24 20 = 0 then 0 else (r (bits w 24 20)).toNat
      let p : Packet := {
        op := 0x07, cls := 3, aux := BitVec.ofNat 32 (df.code <<< 28 ||| sf.code <<< 24 ||| (tv / 65536 % 64) <<< 16 ||| tv % 65536) }
      gOff g % 8192 = 0 → va % 8192 = 0 → remRange c va ((bits w 35 28 + 1) * 8192) .rd b = .ok l b →
      (∀ q ∈ l, ∃ fr z, readFrameAt q.1 q.2.1 false b = .ok (fr, z) b ∧ (z = 0 → headerIs fr.hdr sf = true)) →
      srcFrames c g (if sf = df then 8192 else 16384) p (l.map (fun q => (q.1, q.2.1))) b = .ok (ps, st) b →
      gives (.xferRtadd m w x) ⟨bit w 39, bit w 38, bit w 37, bit w 36⟩ g .rtadd 0)

/-- R560, R561: the atomics: an addition modulo the width, of integers or rounded to nearest even in FP32 and BF16, and a compare
and swap; the answer is the old value, and only the operand's bytes of a store change. -/
def Obligations.AtomicValues : Prop :=
  (∀ old x cmp, old < 2 ^ 64 → atomNew 0 0 old x cmp = (old + x) % 2 ^ 64) ∧ (∀ old x cmp, atomNew 0 1 old x cmp = (old + x) % 2 ^ 32) ∧
  (∀ old x cmp, atomNew 0 2 old x cmp = toF32 ((f32.decode old).add (f32.decode (x % 2 ^ 32)))) ∧
  (∀ old x cmp, atomNew 0 3 old x cmp = (bf16.convert .rne false 0 ((bf16.decode old).add (bf16.decode (x % 2 ^ 16)))).1) ∧
  (∀ old x cmp t, t ≤ 1 → atomNew 2 t old x cmp = if old = cmp % 2 ^ (8 * atomSize t) then x % 2 ^ (8 * atomSize t) else old) ∧
  (∀ (a : Nat) (r : Region) (aop t : Nat) (x cmp : Word) (b : Blk), r.isTier = false → (b.fmeta (a / 8192)).errs = [] →
    (b.fmeta (a / 8192)).hdr.poison = false → atomOk aop t = true →
    let old := leNat (memRead b.mem.cells a (atomSize t))
    ∃ u : Blk, atomicAt a r aop t x cmp b = .ok (old, 0) u ∧
      memRead u.mem.cells a (atomSize t) = natLe (atomSize t) (atomNew aop t old x.toNat cmp.toNat) ∧
      ∀ y, (y < a ∨ a + atomSize t ≤ y) → memRead u.mem.cells y 1 = memRead b.mem.cells y 1)

/-- R569 to R572: the host cores' aperture: an access outside it, through a slot that is off, or of another size or alignment raises an
access fault; one without its queue pair records 0x02; a good one becomes an operation of its queue pair, or is served in its
own partition. -/
def Obligations.ApertureAccesses : Prop :=
  ∀ (hart : Fin 32) (addr : Nat) (s : State),
    let b := s.blk
    let j := (addr - 0x400000000000) / 2 ^ 40 % 64
    let e := b.reg (Reg.xptAper j)
    let g := word (bits e 55 44 <<< 52 ||| bits e 43 34 <<< 42 ||| bits e 33 32 <<< 40 ||| addr % 2 ^ 40)
    let faulted : Blk := { b with host := { b.host with accessFault := true, resp := [] } }
    let noted (st : Nat) (t : Blk) : Blk := if bit (b.reg (Reg.xptAperSts j)) 63 then t
      else t.setReg (Reg.xptAperSts j) (setBit (setBits (b.reg (Reg.xptAperSts j)) 55 48 st) 63 true)
    let good (size : Nat) : Prop := 0x400000000000 ≤ addr ∧ addr < 0x800000000000 ∧ bit e 63 = true ∧ size ∈ [1, 2, 4, 8, 16, 32] ∧ addr % size = 0
    (∀ size, ¬ good size → exec (.apertureLoad hart addr size) s = .next (s.after faulted)) ∧
    (∀ data, ¬ good data.length → exec (.apertureStore hart addr data) s = .next (s.after faulted)) ∧
    (∀ op size v, ¬ (op = .amoAdd ∧ (size = 4 ∨ size = 8)) → exec (.apertureAmo hart addr op size v) s = .next (s.after faulted)) ∧
    (∀ size, good size → b.qp (bits e 15 0) = none → exec (.apertureLoad hart addr size) s = .next (s.after
      (let t := noted 0x02 b
       { t with host := { t.host with accessFault := true, resp := [] } }))) ∧
    (∀ data, good data.length → b.qp (bits e 15 0) = none → exec (.apertureStore hart addr data) s = .next (s.after (noted 0x02 b))) ∧
    (∀ q : QpSt, b.qp (bits e 15 0) = some q → b.gLocal q.part g = false → q.err = none → q.peerPkg = gPkg g → q.peerPart = gPart g →
      let comp : Comp := { id := b.nextId, slot := noSlot, ctx := 0, part := q.part, pc := 0, word := 0, layer := 0, oper := 0, nofault := true }
      let b1 : Blk := { b with nextId := b.nextId + 1 }
      let b2 : Blk := { b1 with host := { b1.host with resp := [], accessFault := false } }
      let cmd (size want : Nat) : RemCmd := { comp := comp, kind := .aper j size, die := q.die, left := 0, want := want }
      (∀ size, good size → exec (.apertureLoad hart addr size) s = .next (s.after ((postCmd (bits e 15 0) (cmd size size)
        [({ op := 0x03, cls := 4, opnd0 := word size, addr := g, first := true, last := true }, none)]).exec' b2))) ∧
      (∀ data, good data.length → exec (.apertureStore hart addr data) s = .next (s.after ((postCmd (bits e 15 0) (cmd 0 0)
        [({ op := 0x01, cls := 4, len := BitVec.ofNat 16 data.length, bytes := data, addr := g, first := true, last := true }, none)]).exec'
          (b1.count (Reg.xptAperSts j) 31 0 1)))) ∧
      (∀ size v, good size → (size = 4 ∨ size = 8) → exec (.apertureAmo hart addr .amoAdd size v) s = .next (s.after
        ((postCmd (bits e 15 0) (cmd size 1) [({
          op := 0x05, cls := 3, aux := BitVec.ofNat 32 (1 <<< 30 ||| (if size = 4 then 1 else 0) <<< 27), opnd0 := v, addr := g,
          first := true, last := true }, none)]).exec' b2))))

/-! ### Lanes and hellos -/

/-- R458, R467, R475, R476: the training of a lane: each event of R475 takes the lane that governs its port to the state of the table;
an attempt that fails is counted, and after the last one the lane gives its rate up or ends in FAILED; a write of FAB_LANE_CFG
that changes a setting starts the lane again. -/
def Rules.LaneTraining : Prop :=
  ∀ (n : Fin 49) (s : State),
    let b := s.blk
    let off := Reg.fabLaneSts n.val
    let k := b.fld off 35 32 + 1
    let last := max (b.fld Reg.fabCtrl 27 24) 1
    let goes (i : Instr) (t : Blk) : Prop := exec i s = .next (s.after t)
    let failed (i : Instr) : Prop :=
      (k < last → goes i ((beginAttempt n.val).exec' (b.setFld off 35 32 k))) ∧
      (last ≤ k → bit (b.reg Reg.fabCtrl) 23 = false →
        goes i ((laneTo n.val 9).exec' ((b.setFld off 35 32 k).setFld off 59 58 0))) ∧
      (last ≤ k → bit (b.reg Reg.fabCtrl) 23 = true →
        goes i ((beginAttempt n.val).exec' (let u := b.setFld off 35 32 0
          u.setPort n.val { u.port n.val with removed := (u.port n.val).removed ||| 2 ^ (b.fld off 59 58 - 1) })))
    b.leads n.val = true →
    (∀ peer : BitVec 3, b.laneSt n.val = 1 →
      (b.rates n.val &&& peer.toNat ≠ 0 → goes (.laneNegDone n peer)
        ((laneTo n.val 2).exec' (b.setFld off 59 58 (topSpeed (b.rates n.val &&& peer.toNat))))) ∧
      (b.rates n.val &&& peer.toNat = 0 → failed (.laneNegDone n peer))) ∧
    (b.laneSt n.val = 2 → goes (.laneTrainDone n) (b.laneTo n.val 3)) ∧
    (b.laneSt n.val = 7 → goes (.laneQuickDone n) (b.laneTo n.val 3)) ∧
    (b.laneSt n.val = 3 → b.hellos n.val = true → goes (.laneAlignDone n) ((laneTo n.val 4).exec' b)) ∧
    (b.laneSt n.val = 3 → b.hellos n.val = false → goes (.laneAlignDone n) ((enterUp n.val none).exec' b)) ∧
    (b.laneSt n.val ∈ [1, 2, 3, 4] → failed (.laneStateTimeout n)) ∧
    (b.laneSt n.val = 7 → goes (.laneStateTimeout n) ((beginAttempt n.val).exec' b)) ∧
    (b.laneSt n.val = 6 → goes (.holdExpiry n) ((laneTo n.val 7).exec'
      (b.setPort n.val { b.port n.val with passed := false, hello := none, txq := [] }))) ∧
    (∀ (src : Src) (v : Word), b.takes src (Reg.fabLaneCfg n.val) = true → laneCfgOf n.val (b.reg (Reg.fabLaneCfg n.val)) v ≠ b.reg (Reg.fabLaneCfg n.val) →
      b.laneSt n.val ≠ 5 → (src = .control ∨ bit (b.reg Reg.secPolicy) 0 = true) →
      ∃ t : Blk, goes (.fabLaneCfgWrite src n v) t ∧ t.reg (Reg.fabLaneCfg n.val) = laneCfgOf n.val (b.reg (Reg.fabLaneCfg n.val)) v ∧
        t.fld off 35 32 = 0)

/-- R461, R462, R475, R476: what the operations of a lane leave: a state is that of every lane of the port and of no other; an attempt
begins at the highest rate in the first state that the settings name; without a rate the lane is FAILED. -/
def Rules.LaneStates : Prop :=
  ∀ (b : Blk) (n m st : Nat), n < 49 → m < 49 → st < 16 →
    ((b.laneTo n st).laneSt m = if m = n ∨ (b.grouped n = true ∧ m < 48 ∧ groupOf m = groupOf n) then st else b.laneSt m) ∧
    (∀ off, (∀ i < 49, off ≠ Reg.fabLaneSts i) → (b.laneTo n st).reg off = b.reg off) ∧
    (b.stageRes 7 ≠ 1 → ∃ t : Blk, (beginAttempt n).exec' b = t ∧
      t.laneSt n = (if b.rates n = 0 then 9 else if b.fld (Reg.fabLaneCfg n) 11 10 = 2 then 3 else if bit (b.reg (Reg.fabLaneCfg n)) 9 then 1 else 2) ∧
      t.fld (Reg.fabLaneSts n) 59 58 = topSpeed (b.rates n) ∧ (t.port n).hello = none ∧ (t.port n).passed = false ∧ (t.port n).txq = []) ∧
    (b.stageRes 7 ≠ 1 → b.xpt.out = [] → ∃ t : Blk, (enterUp n none).exec' b = t ∧ t.laneSt n = 5 ∧
      t.fld (Reg.fabLaneSts n) 15 0 = (b.fld (Reg.fabLaneSts n) 15 0 + 1) % 2 ^ 16 ∧ t.fld (Reg.fabLaneSts n) 35 32 = 0 ∧
      t.fld (Reg.fabLaneSts n) 55 48 = 0xFF ∧ (t.port n).peer = none)

/-- The training of lanes, and what its operations leave: the parts named here together. -/
def Obligations.LaneTrainingCompletes : Prop :=
  Rules.LaneTraining ∧ Rules.LaneStates

/-- R468 to R474, R478, R479: hellos: a lane in ALIGN or later queues one in queue 7; one with another version is counted; one that passes
and shows that this end's hello was seen takes the lane to UP with what it says of the peer; a lane that is UP leaves UP on
a hello of another peer or incarnation, on the loss of hellos and on the loss of alignment. -/
def Obligations.HellosTakeLanesUp : Prop :=
  ∀ (n : Fin 49) (h : Hello) (s : State),
    let b := s.blk
    let off := Reg.fabLaneSts n.val
    let goes (i : Instr) (t : Blk) : Prop := exec i s = .next (s.after t)
    let left (i : Instr) (aligned : Bool) (u : Blk) : Prop := goes i ((leaveUp n.val aligned).exec' u)
    let heard : Blk := b.setPort n.val { b.port n.val with hello := some h }
    b.leads n.val = true →
    (b.hellos n.val = true → b.laneSt n.val ∈ [3, 4, 5, 8] → ((b.port n.val).inQueue 7).length < 64 →
      goes (.helloSend n) (b.setPort n.val { b.port n.val with txq := (b.port n.val).txq ++
        [TxFrame.mk 7 (b.fld off 15 0) .hello (helloFrame (b.helloOut n.val false))] })) ∧
    (b.peerRole n.val = true → b.laneSt n.val ∈ [4, 5, 8] → h.version ≠ 1 → goes (.helloReceive n h) (b.count (Reg.macCount n.val 6) 63 0 1)) ∧
    (b.peerRole n.val = true → h.version = 1 → (b.laneSt n.val = 4 ∨ b.laneSt n.val = 8) → b.helloOk n.val h = true → h.seen = true →
      goes (.helloReceive n h) ((enterUp n.val (some h)).exec' (heard.setPort n.val { b.port n.val with hello := some h, passed := true }))) ∧
    (b.peerRole n.val = true → h.version = 1 → b.laneSt n.val = 4 → b.helloOk n.val h = false →
      goes (.helloReceive n h) ((laneTo n.val 8).exec' (heard.setPort n.val { b.port n.val with hello := some h, passed := false }))) ∧
    (∀ serial mac, b.peerRole n.val = true → h.version = 1 → b.laneSt n.val = 5 → (b.port n.val).peer = some (serial, mac) →
      (h.leaving = true ∨ h.serial ≠ serial ∨ h.linc.toNat ≠ b.fld off 31 16 → left (.helloReceive n h) true heard) ∧
      (h.leaving = false → h.serial = serial → h.linc.toNat = b.fld off 31 16 → goes (.helloReceive n h) heard)) ∧
    (b.laneSt n.val = 5 → b.hellos n.val = true → b.holdsPeer n.val = false → left (.helloMissExpiry n) true b) ∧
    (∀ aligned, b.laneSt n.val = 5 → left (.lanePcsLoss n aligned) aligned b) ∧
    (b.stageRes 7 ≠ 1 → b.xpt.out = [] → ∃ t : Blk, (enterUp n.val (some h)).exec' b = t ∧ t.laneSt n.val = 5 ∧ t.fld off 55 48 = h.lane.toNat ∧
      t.fld off 47 36 = h.package.toNat ∧ t.fld off 31 16 = h.linc.toNat ∧ (t.port n.val).peer = some (h.serial, h.mac.toNat)) ∧
    (b.stageRes 7 ≠ 1 → b.xpt.out = [] → (b.port n.val).txq = [] → ∃ t : Blk, (leaveUp n.val false).exec' b = t ∧ t.laneSt n.val = 6 ∧
      (t.port n.val).ctl = [] ∧ ∃ e ∈ t.dbg.evq, e.code = 0x0A ∧ e.d0 = n.val ∧ e.d1 = b.fld off 15 0 ∧ e.d2 = 0)

/-! ### The MAC -/

/-- R484 to R488, R494 to R496, R512: FRAME_RECEIVE on an aligned lane: each row of R484, after the count of codewords and before the rule of
R478: a bad frame, a control frame, a frame for another station, a hello, a packet of the transport, a frame for the host. -/
def Obligations.FramesReceived : Prop :=
  ∀ (n : Fin 49) (f : RxFrame) (s : State),
    let b := s.blk
    let u := (b.count (Reg.macCount n.val 3) 63 0 f.fecCorr).count (Reg.macCount n.val 4) 63 0 f.fecUnc
    let e := ethView f.bytes
    let bad := b.badFlags n.val f
    let goes (v : Blk) : Prop := exec (.frameReceive n f) s = .next (s.after ((fecExcess n.val f.fecUnc).exec' v))
    let good : Blk := (u.count (Reg.macCount n.val 0) 63 0 1).count (Reg.macCount n.val 1) 63 0 (f.bytes.length + 4)
    let size := if b.grouped n.val then 4 * 524288 else 524288
    let plain : Prop := bad = 0 ∧ ¬(e.tags = 0 ∧ e.etype = 0x8808) ∧ b.dstOk n.val e.dst = true ∧ n.val < 48 ∧ e.tags ≤ 1 ∧
      (∀ v, u.vidOf n.val = some v → 0 < e.tags → e.vid = v) ∧ (u.port n.val).held none + f.bytes.length + 4 ≤ size
    b.pwr.asleep = false → b.dozing = false → b.leads n.val = true → b.laneSt n.val ∈ [4, 5, 8] →
    (bad ≠ 0 → bit (b.reg (Reg.macCtrl n.val)) 62 = false → goes (
      let v := if f.fcsBad then u.count (Reg.macCount n.val 2) 63 0 1 else u
      if bad / 4 ≠ 0 then v.count (Reg.macCount n.val 5) 63 0 1 else v)) ∧
    (bad = 0 → e.tags = 0 → e.etype = 0x8808 → goes ((macControl n.val e).exec' u)) ∧
    (bad = 0 → ¬(e.tags = 0 ∧ e.etype = 0x8808) → b.dstOk n.val e.dst = false →
      (bit (b.reg (Reg.macCtrl n.val)) 63 = false → goes (u.count (Reg.macCount n.val 6) 63 0 1)) ∧
      (bit (b.reg (Reg.macCtrl n.val)) 63 = true → goes ((rxDeliver n.val e f.bytes 32 false).exec' good))) ∧
    (plain → e.etype = 0x88B5 → b.peerRole n.val = true → goes ((helloIn n.val (helloOf e.src e.body)).exec' good)) ∧
    (∀ v, plain → e.etype ≠ 0x88B5 → u.laneSt n.val = 5 → udpView e = some v → v.badSum = false → v.dport = u.fld Reg.xptCtrl 63 48 →
      v.noSum = false → u.isOurIp v.v4 v.dst = true →
      goes ((toTransport n.val (rxPrio e) (f.bytes.length + 4) (packetOf v.body)).exec' good)) ∧
    (plain → e.etype ≠ 0x88B5 → u.laneSt n.val = 5 → udpView e = none →
      (bit (u.reg (Reg.macCtrl n.val)) 61 = true → goes ((rxDeliver n.val e f.bytes 0 (isPtpEvent e none)).exec' good)) ∧
      (bit (u.reg (Reg.macCtrl n.val)) 61 = false → goes (u.count (Reg.macCount n.val 6) 63 0 1)))

/-- R489, R490, R480, R507, R508: FRAME_TRANSMIT sends a PAUSE or PFC frame first, else the oldest frame of the highest queue that its peer
has not paused and that may leave; the transmit ring's slot that it came from is done; a write of the ring's index takes the
next slot. -/
def Rules.FramesSent : Prop :=
  ∀ (n : Fin 49) (s : State),
    let b := s.blk
    let off := Reg.fabLaneSts n.val
    (∀ g r, b.leads n.val = true → b.laneSt n.val ∈ [3, 4, 5, 8] → (b.port n.val).ctl = g :: r →
      exec (.frameTransmit n) s = .next (s.after
        ((wire n.val g).exec' ((b.setPort n.val { b.port n.val with ctl := r }).count (Reg.macCount n.val 12) 63 0 1)))) ∧
    (∀ g : TxFrame, b.leads n.val = true → b.laneSt n.val = 5 → (b.port n.val).ctl = [] → b.fld (Reg.macFcSts n.val) 23 16 = 0 →
      (∀ x ∈ (b.port n.val).txq, ∀ p t, x.kind = .pkt p t → x.linc = b.fld off 15 0) →
      ((b.port n.val).txq.filter (fun x => !b.paused n.val x.q)).find? (fun x => decide (x.q = g.q)) = some g →
      (∀ x ∈ (b.port n.val).txq, b.paused n.val x.q = false → x.q ≤ g.q) →
      exec (.frameTransmit n) s = .next (s.after ((do
        match g.kind with
        | .ring ts => txSlotDone 0x00 (if ts then some (b.timestamp (sext (b.fld (Reg.macTsAdj n.val) 31 16) 16)) else none)
        | _ => pure ()
        txRing
        kick : Act Unit).exec' ((wire n.val g.bytes).exec' (b.setPort n.val { b.port n.val with txq := (b.port n.val).txq.erase g }))))) ∧
    (∀ bs : List Byte, ∃ t : Blk, (wire n.val bs).exec' b = t ∧ (t.port n.val).lastTx = padTo (max 60 bs.length) bs ∧
      t.reg (Reg.macCount n.val 10) = word (satAdd 64 (b.reg (Reg.macCount n.val 10)).toNat 1) ∧
      t.reg (Reg.macCount n.val 11) = word (satAdd 64 (b.reg (Reg.macCount n.val 11)).toNat (max 60 bs.length + 4))) ∧
    (∀ (src : Src) (v : Word), b.takes src Reg.fabTxrIdx = true → bit (b.reg Reg.fabTxrCfg) 63 = false →
      exec (.fabTxrIdxWrite src v) s = .next (s.after (b.setFld Reg.fabTxrIdx 63 32 (bits v 63 32)))) ∧
    (∀ (src : Src) (v h : Word) (bs : List Byte) (p : Nat), b.takes src Reg.fabTxrIdx = true → bit (b.reg Reg.fabTxrCfg) 63 = true →
      let u := b.setFld Reg.fabTxrIdx 63 32 (bits v 63 32)
      let a := ringSlot (b.reg Reg.fabTxrCfg) (u.fld Reg.fabTxrIdx 31 0)
      b.ringBusy = false → u.fld Reg.fabTxrIdx 31 0 ≠ bits v 63 32 → readWord a u = .ok h u → p = b.govern (bits h 47 40) →
      bits h 35 0 = 0 → bits h 47 40 ≤ 48 → 60 ≤ bits h 63 48 → bits h 63 48 + 4 ≤ b.maxFrame p → b.laneSt p = 5 →
      ((b.port p).inQueue (bits h 39 37)).length < 64 → readPa ⟨none⟩ (a + 64) (bits h 63 48) u = .ok bs u →
      exec (.fabTxrIdxWrite src v) s = .next (s.after (u.setPort p { b.port p with
        txq := (b.port p).txq ++ [TxFrame.mk (bits h 39 37) (b.fld (Reg.fabLaneSts p) 15 0) (.ring (bit h 36)) bs] }))) ∧
    (∀ (src : Src) (tx : Bool) (v : Word),
      let off := if tx then Reg.fabTxrCfg else Reg.fabRxrCfg
      let idx := if tx then Reg.fabTxrIdx else Reg.fabRxrIdx
      b.takes src off = true → ∃ t : Blk, exec (.fabRingCfgWrite src tx v) s = .next (s.after t) ∧
        bit (t.reg off) 63 = bit v 63 ∧ bits (t.reg off) 61 48 = bits v 61 48 ∧
        (bit (b.reg off) 63 = true → bits (t.reg off) 47 14 = bits (b.reg off) 47 14 ∧ bits (t.reg off) 3 0 = bits (b.reg off) 3 0 ∧
          t.reg idx = b.reg idx) ∧
        (bit (b.reg off) 63 = false → bits (t.reg off) 47 14 = bits v 47 14 ∧ bits (t.reg off) 3 0 = bits v 3 0 ∧
          t.reg idx = if bit v 63 then 0 else b.reg idx))

/-- R495 to R499: flow control: a pause ends when its time has passed, what a port holds paused it refreshes or releases, and a priority
that its peer pauses for too long raises event 0x0B and lets its queue be discarded. -/
def Rules.FlowControl : Prop :=
  ∀ (n : Fin 49) (q : Fin 8) (s : State),
    let b := s.blk
    let off := Reg.macFcSts n.val
    let all := if b.fcMode n.val = 1 then 255 else 2 ^ q.val
    let sends (i : Instr) (quanta x : Nat) : Prop := exec i s = .next (s.after
      ((b.setPort n.val { b.port n.val with ctl := (b.port n.val).ctl ++ [pauseFrame (b.fcMode n.val) (b.macOf n.val) q.val quanta] }).setFld off 15 8 x))
    ((b.fld off 7 0).testBit q.val = true → exec (.pauseExpiry n q) s = .next (s.after (kick.exec'
      ((b.setFld off 7 0 (b.fld off 7 0 - (b.fld off 7 0 &&& all))).setFld off 23 16 (b.fld off 23 16 - (b.fld off 23 16 &&& all)))))) ∧
    (b.fcOn n.val q.val = true → (b.fld off 15 8).testBit q.val = true → b.xon n.val < b.fcHeld n.val q.val →
      b.fld (Reg.macFc n.val) 47 32 ≠ 0 → sends (.pfcRefresh n q) (b.fld (Reg.macFc n.val) 47 32) (b.fld off 15 8 ||| all)) ∧
    ((b.fld off 15 8).testBit q.val = true → b.fcHeld n.val q.val < b.xon n.val →
      sends (.pfcXonSend n q) 0 (b.fld off 15 8 - (b.fld off 15 8 &&& all))) ∧
    ((b.fld off 7 0).testBit q.val = true → b.fld (Reg.macFc n.val) 15 8 ≠ 0 → (b.fld off 23 16).testBit q.val = false →
      exec (.pfcWatchdogExpiry n q) s = .next (s.after ((wdDiscard n.val).exec' ((b.setFld off (16 + q.val) (16 + q.val) 1).withEv
        { code := 0x0B, sev := 1, die := if n.val = 48 then 2 else laneDie n.val, d0 := n.val, d1 := q.val }))))

/-- Transmission, transmit rings, PAUSE, PFC and the watchdog of a paused queue: the parts named here together. -/
def Obligations.FramesSentUnderFlowControl : Prop :=
  Rules.FramesSent ∧ Rules.FlowControl

/-! ### The transport -/

/-- R538, R549, R557 to R562: a request that is the next of its queue pair and passes the checks of R549 has its effect: a write stores its
bytes, a read answers what its range holds, an atomic changes its word and answers the old value, a tile is offered to its landing;
then the signal, and what R538 and R541 say of the packets that follow. -/
def Obligations.RequestsServed : Prop :=
  ∀ (p : Packet) (s : State) (d n : Nat) (u v1 v2 : Blk) (q : QpSt),
    takeIn p s.blk = .ok d u → u.nextRequest p n q → reqChecks p ((touch n q.die).exec' u) = .ok () v1 →
    let part := p.dstPart.toNat
    let off := p.addr.toNat % 2 ^ 42
    let size := p.bytes.length
    let goes (i : Instr) (a : Act Unit) (r : Served) (t : Blk) : Prop := exec i s = .next (s.after ((do a; requestDone n q p r : Act Unit).exec' t))
    (∀ (a : Nat) (r : Region), p.frame = none → p.poison = false → reqPieces q.die part off size .wr v1 = .ok [(a, r, size)] v1 →
      writeGuard part off size [(a, r, size)] v1 = .ok () v1 → writeLinesAt a r p.bytes v1 = .ok () v2 →
      let v3 := if r = .ddr then v2.devTouch q.die a size else v2
      (p.op = 0x01 → goes (.cragilWrite p) (colArrive n off) {} v3) ∧
      (p.op = 0x02 → goes (.cragilWriteSignal p) (requestSignal p) {} v3)) ∧
    (∀ (a : Nat) (r : Region) (f : Frame), p.frame = some f → off % 8192 = 0 → reqPieces q.die part off 8192 .wr v1 = .ok [(a, r, 8192)] v1 →
      writeGuard part off 8192 [(a, r, 8192)] v1 = .ok () v1 →
      writeFrameAt a r { f with hdr := { f.hdr with poison := f.hdr.poison || p.poison } } v1 = .ok () v2 →
      (p.op = 0x01 → goes (.cragilWrite p) (colArrive n off) {} v2) ∧
      (p.op = 0x02 → goes (.cragilWriteSignal p) (requestSignal p) {} v2)) ∧
    (∀ (ps : List (Nat × Region × Nat)) (l : List ReadPart), p.op = 0x03 →
      (bit p.opnd1 0 = true → off % 8192 = 0 ∧ p.opnd0.toNat % 8192 = 0) → reqPieces q.die part off p.opnd0.toNat .rd v1 = .ok ps v1 →
      readParts (bit p.opnd1 0) ps v1 = .ok l v2 →
      goes (.cragilReadRequest p) (pure ()) { answers := l.map (fun x => {
        backPkt p 0x04 4 with
        aux := p.psn, opnd0 := word x.off, poison := x.poison, status := BitVec.ofNat 8 x.status, frame := x.frame, bytes := x.bytes,
        len := BitVec.ofNat 16 (if x.frame.isSome then 8768 else x.bytes.length) }) } v2) ∧
    (∀ (a : Nat) (r : Region) (old st : Nat),
      let aop := p.aux.toNat / 2 ^ 30
      let t := p.aux.toNat / 2 ^ 27 % 8
      p.op = 0x05 → atomOk aop t = true → off % atomSize t = 0 → reqPieces q.die part off (atomSize t) .wr v1 = .ok [(a, r, atomSize t)] v1 →
      writeGuard part off (atomSize t) [(a, r, atomSize t)] v1 = .ok () v1 → atomicAt a r aop t p.opnd0 p.opnd1 v1 = .ok (old, st) v2 →
      goes (.cragilAtomic p) (pure ()) {
        answers := [{ backPkt p 0x06 3 with aux := p.psn, opnd0 := word old, status := BitVec.ofNat 8 st }], result := some (word old) } v2) ∧
    (∀ (a : Nat) (r : Region) (f : Frame) (st : Nat),
      let x := p.aux.toNat
      let idx := x / 65536 % 64
      p.op = 0x07 → p.frame = some f → off % 8192 = 0 → idx < 16 → reqPieces q.die part off 8192 .wr v1 = .ok [(a, r, 8192)] v1 →
      writeGuard part off (reqSpan p) [(a, r, 8192)] v1 = .ok () v1 →
      arrive {
        addr := a, tag := BitVec.ofNat 16 x, idx := BitVec.ofNat 6 idx, sfmt := BitVec.ofNat 4 (x / 2 ^ 24), dfmt := some (BitVec.ofNat 4 (x / 2 ^ 28)),
        f := { f with hdr := { f.hdr with poison := f.hdr.poison || p.poison } }, origin := none, pusher := none } v1 = .ok st v2 →
      goes (.cragilTileAdd p) (if st = 0 then requestSignal p else pure ()) { status := st } v2)

/-- R546, R547, R549: checks 5 to 9 of a request against the key of its target partition and a cached window: what each refuses, and with
which status; a request that passes them all changes nothing. -/
def Obligations.RequestChecks : Prop :=
  ∀ (p : Packet) (b : Blk) (e e1 e2 e3 : Word),
    let part := p.dstPart.toNat
    let k := b.reg (Reg.xptPkey part)
    let off := p.addr.toNat % 2 ^ 42
    let source : Prop := bits e 57 56 = 0 ∨ (bits e 57 56 = 1 ∧ p.srcPkg.toNat = bits e 55 44) ∨
      (bits e 57 56 = 2 ∧ p.srcPkg.toNat = bits e 55 44 ∧ p.srcPart.toNat = bits e 41 32)
    let inside : Prop := bits e1 41 0 ≤ off ∧ off + reqSpan p ≤ bits e2 41 0 + 1
    let may : Prop := bit e (if p.op = 0x03 then 62 else if p.op = 0x05 then 60 else if p.op = 0x07 then 59 else 61) = true
    let signal : Prop := givesSignal p = true → bit e 58 = true ∧ b.ownsSync part (bits p.opnd1 63 50) = true
    sget [] b.xpt.wins (part * 256 + p.win.toNat) = [e, e1, e2, e3] →
    (p.kgen.toNat ≠ bits k 63 48 → reqChecks p b = .error 0x03 b) ∧
    (p.kgen.toNat = bits k 63 48 → p.key.toNat ≠ bits k 47 0 ∨ p.key = 0 → reqChecks p b = .error 0x02 b) ∧
    (p.kgen.toNat = bits k 63 48 → p.key.toNat = bits k 47 0 → p.key ≠ 0 → bit (b.reg Reg.xptWinBase) 0 = true →
      (bit e 63 = false → reqChecks p b = .error (if bit e3 63 then 0x03 else 0x02) b) ∧
      (bit e 63 = true → ¬(inside ∧ may ∧ source ∧ signal) → reqChecks p b = .error 0x02 b) ∧
      (bit e 63 = true → inside → may → source → signal → reqChecks p b = .ok () b))

/-- R541 to R545, R551, R559 to R567: answers to this package's requests on an active queue pair that they name: what an acknowledgement
frees, a refusal that puts the queue pair in error and one that does not, receiver-not-ready, a part of a read, an atomic's old
value. -/
def Rules.AnswersTaken : Prop :=
  ∀ (p : Packet) (s : State) (d n : Nat) (u : Blk) (q : QpSt),
    takeIn p s.blk = .ok d u → s.blk.pkgNo = some p.dstPkg.toNat → p.version = 1 → p.dstQp.toNat = n → u.qp n = some q → q.err = none →
    q.matches p = true →
    let goes (i : Instr) (a : Act Unit) (t : Blk) : Prop := exec i s = .next (s.after ((do a; colSettle : Act Unit).exec' t))
    let st := p.status.toNat
    let psn := p.psn.toNat
    (p.op = 0x10 → goes (.cragilAck p) (ackIn n psn p.opnd0) u) ∧
    (q.sent.any (fun x => decide (diff32 x.pkt.psn.toNat psn ≤ 0)) = true → ∃ t : Blk, ackedTo n psn u = .ok () t ∧ ∃ q', t.qp n = some q' ∧
      q'.sent = q.sent.filter (fun x => decide (0 < diff32 x.pkt.psn.toNat psn)) ∧ q'.una = psnAdd psn 1 ∧ q'.retry = 0 ∧
      q'.spsn = q.spsn ∧ q'.queue = q.queue) ∧
    (∀ x, p.op = 0x11 → q.named psn = some x → x.pkt.op.toNat ≤ 0x07 →
      ((x.pkt.op = 0x07 ∧ (st = 0x0A ∨ st = 0x0B)) → goes (.cragilNak p) (do
        ackedTo n psn
        modCmd n x.cmd (·.refuse st)
        retire n
        advance n) u) ∧
      (¬(x.pkt.op = 0x07 ∧ (st = 0x0A ∨ st = 0x0B)) → goes (.cragilNak p) (do
        qpError n st psn
        if st = 4 then staleNak n) u)) ∧
    (p.op = 0x12 → u.col = {} → q.sent.any (fun x => decide (x.pkt.psn.toNat = psn)) = true →
      ∃ (t : Blk) (q' : QpSt), exec (.cragilRnr p) s = .next (s.after t) ∧ t.qp n = some q' ∧
        q'.rnr = some (match q.rnr with
          | some r => if diff32 r psn ≤ 0 then r else psn
          | none => psn) ∧ q'.sent = q.sent ∧ q'.cmds = q.cmds ∧
        (∀ r, q'.rnr = some r → (∀ o ∈ t.xpt.out, t.heldBy n r o.pkt = false) ∧
          ∀ m, ∀ f ∈ (t.port m).txq, ∀ x y, f.kind = .pkt x y → t.heldBy n r x = false)) ∧
    (∀ (x : SentPkt) (c : RemCmd) (fr : Bool) (dst tot : Nat) (v : Blk),
      let y := partOf p
      let got := c.got ++ [(y.off, if y.frame.isSome then 8192 else y.bytes.length)]
      p.op = 0x04 → q.named p.aux.toNat = some x → q.cmd x.cmd = some c → c.kind = .read fr dst tot → c.want ≠ 0 → c.stopAt = none →
      (∀ g ∈ c.got, g.1 ≠ y.off) → putPart c fr dst y u = .ok 0 v →
      goes (.cragilReadResponse p) (do
        modCmd n x.cmd (fun c => { c with
          got := got, stopAt := none, want := readLeft tot none got,
          moved := c.moved + (if fr then 1 else if y.frame.isSome then 8192 else y.bytes.length) })
        if readLeft tot none got = 0 then modQp n (fun q => { q with waiting := q.waiting.filter (fun t => decide (t.cmd ≠ x.cmd)) })
        retire n) v) ∧
    (∀ (x : SentPkt) (c : RemCmd) (ret k : Nat) (v : Blk), p.op = 0x06 → p.status = 0 → q.named p.aux.toNat = some x → q.cmd x.cmd = some c →
      c.kind = .atomic (some ret) k → c.want ≠ 0 → vwrite ⟨some c.die⟩ c.comp.part ret (natLe 8 p.opnd0.toNat) u = .ok () v →
      goes (.cragilAtomicResponse p) (do
        modCmd n x.cmd (fun c => { c with want := 0 })
        modQp n (fun q => { q with waiting := q.waiting.filter (fun t => decide (t.cmd ≠ x.cmd)) })
        retire n) v)

/-- R526, R527, R532 to R534, R541 to R544: the transport's timers, the arrival of a fetched context, and transit: a packet for another
package leaves with TTL one lower or is dropped and counted. -/
def Rules.TransportEvents : Prop :=
  ∀ (qp : BitVec 16) (s : State) (q : QpSt),
    let n := qp.toNat
    let b := s.blk
    let goes (i : Instr) (t : Blk) : Prop := exec i s = .next (s.after t)
    (∀ r, b.qp n = some q → q.rnr = some r → goes (.rnrBackoffExpiry qp) ((do
      (q.sent.filter (fun x => decide (0 ≤ diff32 x.pkt.psn.toNat r))).forM (resend n)
      advance n : Act Unit).exec' (b.setQp n (some { q with rnr := none })))) ∧
    (∀ me, b.qp n = some q → q.err = none → q.unacked ≠ 0 → b.pkgNo = some me → b.xpt.pool = [] → goes (.ackTimerExpiry qp) (kick.exec'
      (let t := b.setQp n (some { q with unacked := 0 })
       { t with xpt := { t.xpt with out := t.xpt.out ++ [⟨{ q.stamp me n {} with
          op := 0x10, cls := 0, psn := BitVec.ofNat 32 (psnAdd q.epsn (2 ^ 32 - 1)), opnd0 := 0 }, none⟩] } }))) ∧
    (b.qp n = some q → q.err = none → q.rnr = none → (q.sent ≠ [] ∨ q.waiting ≠ []) →
      let t := b.count (Reg.xptCount q.die 6) 63 0 1
      let t := t.setQp n (some { q with retry := q.retry + 1 })
      (q.retry < b.fld Reg.xptCtrl 39 36 → goes (.rtoExpiry qp) ((do
        (q.waiting ++ q.sent.filter (fun x => !x.sacked)).forM (resend n)
        kick
        colSettle : Act Unit).exec' t)) ∧
      (b.fld Reg.xptCtrl 39 36 ≤ q.retry → ∀ x r, q.sent ++ q.waiting = x :: r →
        goes (.rtoExpiry qp) ((do qpError n 0x0D x.pkt.psn.toNat; colSettle : Act Unit).exec' t))) ∧
    (b.xpt.fetching = [n] → b.qp n = some q → b.cached n q.die = true → b.xpt.miss = [] → b.col = {} →
      goes (.contextFetchComplete qp) { b with xpt := { b.xpt with fetching := [] } }) ∧
    (b.xpt.fetching = [n] → b.qp n = some q → b.cached n q.die = false → b.pinnedCtxs q.die + (b.cacheOf q.die).length < 4096 →
      b.xpt.miss = [] → b.col = {} →
      goes (.contextFetchComplete qp) (({ b with xpt := { b.xpt with fetching := [] } } : Blk).setCache q.die (b.cacheOf q.die ++ [n]))) ∧
    (∀ (die : Fin 2) (p : Packet) (me d : Nat) (u : Blk), b.pkgNo = some me → p.dstPkg.toNat ≠ me → takeIn p b = .ok d u →
      let drop : Prop := p.ttl.toNat ≤ 1 ∨ b.route p.dstPkg.toNat = none ∨ b.route p.dstPkg.toNat = some 0xA ∨
        4194304 < b.transitUsed die.val + 64 + (pktPayload p).length
      (drop → goes (.transitForward die p) (u.count (Reg.xptCount die.val 4) 63 0 1)) ∧
      (¬ drop → goes (.transitForward die p) (kick.exec'
        { u with xpt := { u.xpt with out := u.xpt.out ++ [⟨{ p with ttl := p.ttl - 1 }, some die.val⟩] } })))

/-- Answers to this package's requests, the transport's timers, and transit: the parts named here together. -/
def Obligations.AnswersAndTimers : Prop :=
  Rules.AnswersTaken ∧ Rules.TransportEvents

/-- R530, R546 to R550, R567: the commands of queue pairs, windows and keys: opening, closing and putting in error; loading a window, and
revoking it, which stays under way until no write that it passed is left; a changed key advances its generation. -/
def Obligations.QueuePairsAndWindows : Prop :=
  ∀ (src : Src) (qp : BitVec 16) (part : BitVec 10) (win : BitVec 8) (s : State),
    let n := qp.toNat
    let p := part.toNat
    let w := win.toNat
    let b := s.blk
    let goes (i : Instr) (t : Blk) : Prop := exec i s = .next (s.after t)
    let ends (i : Instr) (st : Nat) (t : Blk) : Prop := goes i (colSettle.exec' (t.setReg Reg.xptQpSts (word (st <<< 48 ||| n))))
    (b.takes src Reg.xptQpCmd = true → bit (b.reg Reg.xptQpSts) 63 = false →
      (b.qp n ≠ none → ends (.qpOpen src qp) 0x0A b) ∧
      (∀ ws u v me, b.qp n = none → readWords (b.ctxAddr n) 9 b = .ok ws u → bits (nth ws 0 0) 63 58 = 0x20 → b.pkgNo = some me →
        ¬(me = (qpOf ws).peerPkg ∧ (qpOf ws).peerPart = (qpOf ws).part) →
        (b.partOn (qpOf ws).part = false → ends (.qpOpen src qp) 0x02 u) ∧
        (b.partOn (qpOf ws).part = true → saveQp n 1 (qpOf ws) (u.setQp n (some (qpOf ws))) = .ok () v → ends (.qpOpen src qp) 0 v)) ∧
      (∀ q v, b.qp n = some q → q.cmds = [] →
        saveQp n 0 { q with cmds := [], queue := [], sent := [], waiting := [], rnr := none, unacked := 0 }
          ((b.dropFrames n).setQp n (some { q with cmds := [], queue := [], sent := [], waiting := [], rnr := none, unacked := 0 })) = .ok () v →
        ends (.qpClose src qp) 0 ((v.setQp n none).setCache q.die ((v.cacheOf q.die).filter (fun x => decide (x ≠ n))))) ∧
      (∀ q v, b.qp n = some q → q.err = none → qpError n 1 q.una b = .ok () v → ends (.qpErrorCmd src qp) 0 v) ∧
      (∀ q, b.qp n = some q → q.err ≠ none → ends (.qpErrorCmd src qp) 0x0A b)) ∧
    (∀ q st psn v, b.qp n = some q → q.err = none → q.cmds = [] → qpError n st psn b = .ok () v → ∃ q', v.qp n = some q' ∧
      q'.err = some (st, psn, b.now) ∧ q'.sent = [] ∧ q'.queue = [] ∧ q'.waiting = []) ∧
    (b.takes src Reg.xptWinCmd = true → bit (b.reg Reg.xptWinSts) 63 = false → ∀ ws v, readWords (b.winAddr p w) 4 b = .ok ws b →
      (bits (nth ws 0 2) 41 0 < bits (nth ws 0 1) 41 0 → goes (.winLoad src part win) (b.setReg Reg.xptWinSts (winSts false 0x0A p w))) ∧
      (bits (nth ws 0 1) 41 0 ≤ bits (nth ws 0 2) 41 0 → putWin p w true ws b = .ok () v →
        goes (.winLoad src part win) (v.setReg Reg.xptWinSts (winSts false 0 p w)) ∧
        sget [] v.xpt.wins (p * 256 + w) = [setBit (nth ws 0 0) 63 true, nth ws 0 1, nth ws 0 2, setBit (nth ws 0 3) 63 false]) ∧
      (putWin p w false ws b = .ok () v → goes (.winRevoke src part win)
          (({ v with xpt := { v.xpt with revoking := some (p, w) } } : Blk).setReg Reg.xptWinSts
            (winSts true (bits (v.reg Reg.xptWinSts) 55 48) p w)) ∧
        sget [] v.xpt.wins (p * 256 + w) = [setBit (nth ws 0 0) 63 false, nth ws 0 1, nth ws 0 2, setBit (nth ws 0 3) 63 true])) ∧
    (∀ x, b.xpt.revoking = some x → goes .revokeComplete (
      let t : Blk := { b with xpt := { b.xpt with revoking := none } }
      if x.2 < 256 then t.setReg Reg.xptWinSts (winSts false 0 x.1 x.2) else t.setFld Reg.xptWinSts 63 63 0)) ∧
    (∀ v : Word, b.takes src (Reg.xptPkey p) = true → bits v 47 0 ≠ bits (b.reg (Reg.xptPkey p)) 47 0 → b.xpt.revoking = none →
      goes (.xptPkeyWrite src part v)
        (({ b.setReg (Reg.xptPkey p) (word (((bits (b.reg (Reg.xptPkey p)) 63 48 + 1) % 2 ^ 16) <<< 48 ||| bits v 47 0)) with
          xpt := { b.xpt with revoking := some (p, 256) } } : Blk).setFld Reg.xptWinSts 63 63 1)) ∧
    (∀ v : Word, b.takes src (Reg.xptPkey p) = true → bits v 47 0 = bits (b.reg (Reg.xptPkey p)) 47 0 → goes (.xptPkeyWrite src part v) b)

/-! ### Collectives, permutes, the mirror, package loss -/

/-- R576 to R582, R592, R593: XFER.COLL and XFER.PERM of a member: with a good descriptor, job and operands they begin; one on a
quarantined job or a broken line ends at once (R605, R607). -/
def Rules.CollectivesIssue : Prop :=
  ∀ (m : Member) (w : Word) (s : State) (k desc : Nat) (bs : List Byte) (r : JobRec),
    let b := s.blk.begun k w
    let c := s.blk.cx k w
    let va := (b.sreg k (bits w 4 0)).toNat
    let b1 : Blk := { b with nextId := b.nextId + 1, outst := b.outst ++ [Outst.mk b.nextId k c.ctx .coll] }
    wordOk w false (0, 0) = true → rsvdOk w [(47, 47), (4, 0)] = true →
    (s.blk.issuer m w 6 0x10 = some k → descAddr c va 128 128 b = .ok desc b → rdBytes c va 128 (fun _ _ _ => true) b = .ok bs b →
      let ws := (chunk 8 16 bs).map (fun x => word (leNat x))
      let g := nth ws (0 : Word)
      let y := b.collOf c w desc ws r
      let follow := decide (bits (g 0) 31 0 = (bits (g 7) 63 32 + 1) % 2 ^ 32)
      let held := if b.col.holds.contains (b.series y) then bits (g 7) 15 0 else 0
      let b2 : Blk := if follow then b1 else b1.count (Reg.colCount c.die 2) 63 0 (popcount held 16 * y.tiles)
      collForm ws (Fmt.ofCode (bits (g 0) 50 47)) (Fmt.ofCode (bits (g 0) 46 43)) = true → jobFor c (bits (g 0) 59 56) b = .ok r b →
      b.ownsSync c.part y.obj = true → y.lost = 0 →
      (y.kind ≠ 2 → y.gives = true → ∀ i < y.len, ∀ t < y.tiles, ∃ x, remLocal c (y.at y.src i t) .rd 8192 b = .ok x b) →
      (y.kind ≠ 2 → ∃ x, armCheck y (some c) y.land y.pos b = .ok x b) →
      (y.kind ≠ 1 → collRange c y.dst (y.len * y.frames) .wr false b = .ok () b) →
      (y.kind = 3 → ∀ q ∈ piecesOf y.recva (y.len * y.recLen), ∃ a reg, remLocal c q.1 .wr q.2 b = .ok (a, reg) b ∧ b.near c a reg = true) →
      (y.pol = 2 → collRange c y.pbuf (y.len * y.frames) .wr true b = .ok () b) →
      (b.col.colls.filter (fun z => decide (z.die = c.die))).length < 64 →
      ∀ t : Blk, (do
        if r.closed y.axis ≠ 0 then endColl b.nextId (r.closed y.axis)
        else if y.kind = 2 then gatherBegin b.nextId
        else reduceBegin b.nextId
        colSettle : Act Unit)
          { b2 with col := { b2.col with colls := b2.col.colls ++ [{ y with held := if follow then held else 0 }] } } = .ok () t →
      exec (.xferColl m w) s = .next (s.after t)) ∧
    (s.blk.issuer m w 6 0x11 = some k → descAddr c va 64 8 b = .ok desc b → rdBytes c va 64 (fun _ _ _ => true) b = .ok bs b →
      let ws := (chunk 8 8 bs).map (fun x => word (leNat x))
      let g := nth ws (0 : Word)
      let n := bits (g 0) 8 0
      let table := bits (g 1) 41 4 * 16
      let x := bits (g 0) 55 54
      rsvdExt (g 0) [(59, 56), (55, 54), (8, 0)] = true → rsvdExt (g 1) [(41, 4)] = true → rsvdExt (g 2) [(63, 50), (49, 18)] = true →
      1 ≤ n → n ≤ 256 → (∃ a, descAddr c table (16 * n) 16 b = .ok a b) → jobFor c (bits (g 0) 59 56) b = .ok r b →
      b.ownsSync c.part (bits (g 2) 63 50) = true → ∀ tb, rdBytes c table (16 * n) (fun _ _ _ => true) b = .ok tb b →
      let es := (chunk 16 n tb).map (fun y => (wordAt y 0, wordAt y 8))
      (∀ e ∈ es, bits e.1 63 60 < r.len x ∧ bits e.1 59 56 < r.len x ∧
        rsvdExt e.1 [(63, 60), (59, 56), (55, 42), (41, 13)] = true ∧ rsvdExt e.2 [(41, 13)] = true ∧
        (bits e.1 63 60 = r.pos x → ∀ i < bits e.1 55 42 + 1, ∃ y, remLocal c (bits e.1 41 13 * 8192 + i * 8192) .rd 8192 b = .ok y b) ∧
        (bits e.1 59 56 = r.pos x → ∀ i < bits e.1 55 42 + 1, ∃ pa, translate c.part (bits e.2 41 13 * 8192 + i * 8192) .wr b = .ok pa b ∧
          ((b.resolve pa).2.isTier = true ∨ (b.resolve pa).2.isStore = true))) →
      ∀ t : Blk, (do
        if r.closed x ≠ 0 then endPerm b.nextId (r.closed x)
        colSettle : Act Unit) { b1 with col := { b1.col with perms := b1.col.perms ++ [b.permOf c w desc ws es r] } } = .ok () t →
      exec (.xferPerm m w) s = .next (s.after t))

/-- R583 to R587, R591, R593, R611: a collective whose step has completed goes on to its gather step or ends, in issue order; at its deadline
the landings still armed admit what has arrived, and at the end of its grace they close; a grant and a done notice of another
member are noted; a job that is disabled ends its collectives. -/
def Rules.CollectivesProceed : Prop :=
  ∀ (id : Nat) (s : State) (c : Coll),
    let b := s.blk
    let goes (i : Instr) (a : Act Unit) (t : Blk) : Prop := exec i s = .next (s.after ((do a; colSettle : Act Unit).exec' t))
    b.coll id = some c →
    (b.stepDone c = true → c.stage = 0 → c.kind = 3 → goes (.collStepComplete id) (gatherBegin id) { b with
      col := { b.col with colls := b.col.colls.map (fun y => if y.comp.id = id then { y with stage := 1 } else y) } }) ∧
    (b.stepDone c = true → ¬(c.stage = 0 ∧ c.kind = 3) →
      (∀ y ∈ b.col.colls.takeWhile (fun y => decide (y.comp.id ≠ id)),
        ¬(y.comp.slot = c.comp.slot ∧ y.comp.ctx = c.comp.ctx ∧ y.job = c.job ∧ y.axis = c.axis)) →
      goes (.collStepComplete id) (endColl id c.err) b) ∧
    (b.stepDone c = false → goes (.collStepComplete id) (pure ()) b) ∧
    (∀ e, b.collHeld id = false → c.stage = 0 → c.pol ≠ 0 → c.lands = [(c.pos, e)] → (b.collLand c e).armed = true →
      (b.collLand c e).admitted = none → goes (.collDeadlineExpiry id) (do
        setLand c.comp.slot e { b.collLand c e with
          admitted := some (((b.collLand c e).bits.foldl (fun a m => a ||| m) 0) &&& (c.s ||| c.q <<< 16)) }
        colCount c.die 1 1
        tryClose c) b) ∧
    (∀ e, b.collHeld id = false → c.lands = [(c.pos, e)] → (b.collLand c e).armed = true → (b.collLand c e).admitted ≠ none →
      goes (.collGraceExpiry id) (closeLanding c.comp.slot e) b) ∧
    (∀ (p : Packet) (d n : Nat) (u : Blk) (q : QpSt) (x : JobRec × Nat × Nat), takeIn p b = .ok d u → u.nextRequest p n q →
      let v := (touch n q.die).exec' u
      jobOfQp n v = .ok (some x) v →
      (p.op = 0x31 → exec (.colGrant p) s = .next (s.after ((requestDone n q p {}).exec'
        { v with col := { v.col with granted := v.col.granted ++ [(n, p.aux.toNat)] } }))) ∧
      (p.op = 0x3B → exec (.colPdone p) s = .next (s.after ((requestDone n q p {}).exec'
        { v with col := { v.col with pdone := v.col.pdone ++ [n] } }))) ∧
      (∀ v2, p.op = 0x34 → noticeIn n q.die p v = .ok () v2 → exec (.colLossNotice p) s = .next (s.after ((requestDone n q p {}).exec' v2)))) ∧
    (∀ (src : Src) (j : Fin 16), b.takes src (Reg.colJob j.val) = true → bit (b.reg (Reg.colJob j.val)) 63 = true →
      (∀ y ∈ b.col.colls, y.job ≠ j.val) → (∀ y ∈ b.col.perms, y.job ≠ j.val) →
      exec (.colJobDisable src j) s = .next (s.after (
        let t := b.setFld (Reg.colJob j.val) 63 63 0
        { t with col := { t.col with holds := t.col.holds.filter (fun h => decide (h.2.1 ≠ j.val)) } })))

/-- Collectives and permutes: issue, steps, deadlines, grants, notices, disabled jobs: the parts named here together. -/
def Obligations.CollectivesRun : Prop :=
  Rules.CollectivesIssue ∧ Rules.CollectivesProceed

/-- R594 to R598: the mirror: a mirror write on a queue pair of partition 0 goes where the map says and is acknowledged; an acknowledgement
frees what it covers; enabling begins a pairing, disabling leaves this package alone; RESEND sends what is unacknowledged. -/
def Rules.MirrorCommands : Prop :=
  ∀ (src : Src) (p : Packet) (s : State) (d n : Nat) (u : Blk) (q : QpSt),
    let b := s.blk
    let off := p.addr.toNat - 0x040000000000
    (takeIn p b = .ok d u → u.nextRequest p n q →
      let v := (touch n q.die).exec' u
      jobOfQp n v = .ok none v →
      (∀ st v2, p.op = 0x38 → q.part = 0 → mirrorIn n p v = .ok st v2 →
        exec (.colMirrorWrite p) s = .next (s.after ((requestDone n q p { status := st }).exec' v2))) ∧
      (p.op = 0x38 → q.part ≠ 0 → exec (.colMirrorWrite p) s = .next (s.after ((requestDone n q p { status := 0x02 }).exec' v))) ∧
      (∀ v2, p.op = 0x39 → mirrorAcked n p.aux.toNat v = .ok () v2 →
        exec (.colMirrorAck p) s = .next (s.after ((requestDone n q p {}).exec' v2)))) ∧
    (∀ (e : Word) (a : Nat) (f : Frame) (v : Blk), bit (b.reg Reg.colMmap) 63 = true → 0x040000000000 ≤ p.addr.toNat → off < 0x10000000000 →
      p.frame = some f → readWord (b.fld Reg.colMmap 47 22 * 2 ^ 22 + 8 * (off / 2 ^ 21)) b = .ok e b → bit e 63 = true →
      b.resolve (bits e 47 21 * 2 ^ 21 + off % 2 ^ 21) = (a, .ddr) →
      writeFrameAt a .ddr { f with hdr := { f.hdr with poison := f.hdr.poison || p.poison } } b = .ok () v →
      p.aux = 1 → mirrorIn n p b = (do
        enginePost n ((v.qp n).getD {}).die 0 (.contrib 0 255) [({ op := 0x39, cls := 5, aux := 1 }, none)]
        pure 0 : Act Nat) { v with col := { v.col with mseen := sset (1, []) v.col.mseen n (2, []) } }) ∧
    (bit (b.reg Reg.colMmap) 63 = false → mirrorIn n p b = .ok 0x02 b) ∧
    (∀ upto, n = b.fld Reg.colMirror 15 0 → b.runs = [] → ∃ t : Blk, mirrorAcked n upto b = .ok () t ∧
      t.col.unacked = b.col.unacked.filter (fun m => decide (0 < diff32 m.seq upto))) ∧
    (b.takes src Reg.colMirror = true → bit (b.reg Reg.colMirror) 63 = true →
      exec (.mirrorResend src) s = .next (s.after ((logged (srcWho src) Reg.colMirror (do
        if b.fld Reg.colMirror 61 60 = 3 then setFld Reg.colMirror 61 60 1
        b.col.unacked.forM mirrorPut)).exec' b))) ∧
    (b.takes src Reg.colMirror = true → b.fld Reg.colMirror 61 60 = 0 → ∃ t : Blk, exec (.colMirrorEnWrite src true) s = .next (s.after t) ∧
      bit (t.reg Reg.colMirror) 63 = true ∧ t.fld Reg.colMirror 61 60 = 1 ∧ t.col.unacked = [] ∧ t.col.mseq = 0 ∧
      t.fld Reg.colMirrorSts 31 0 = 0) ∧
    (b.takes src Reg.colMirror = true → bit (b.reg Reg.colMirror) 63 = true → b.runs = [] →
      ∃ t : Blk, exec (.colMirrorEnWrite src false) s = .next (s.after t) ∧
      bit (t.reg Reg.colMirror) 63 = false ∧ t.fld Reg.colMirror 61 60 = 2 ∧ t.col.unacked = [])

/-- R599, R600, R603: a package whose lanes have all stayed down is declared lost once: it is counted and, where it holds a place of a job's
line, the line's membership, queue pairs and routes follow; the queue pairs to a package of no job go to the error state; a
package with a lane that is UP is not lost. -/
def Rules.PackageLossDeclared : Prop :=
  ∀ (pkg : BitVec 12) (s : State),
    let b := s.blk
    let n := pkg.toNat
    let t : Blk := ({ b with col := { b.col with declared := b.col.declared ++ [n] } } : Blk).count
      (Reg.colCount (laneDie ((b.peerLanes n).headD 0)) 5) 63 0 1
    (b.pkgDown n = false ∨ b.col.declared.contains n = true → exec (.lossHoldExpiry pkg) s = .next (s.after b)) ∧
    (b.pkgDown n = true → b.col.declared.contains n = false →
      (jobsOn b = .ok [] b → b.xpt.qps = [] → ¬(b.fld Reg.colMirror 55 44 = n ∧ bit (b.reg Reg.colMirror) 63 = true) →
        exec (.lossHoldExpiry pkg) s = .next (s.after (colSettle.exec' t))) ∧
      (∀ (r : JobRec) (x p : Nat), jobsOn b = .ok [r] b → r.quar = false → (List.range 4).flatMap (fun x => (r.posOf x n).map (fun p => (x, p))) = [(x, p)] →
        x ≠ r.daxis → readJob r.j t = .ok r t →
        exec (.lossHoldExpiry pkg) s = .next (s.after ((do
          markLoss r x p n true false (r.away x p)
          colSettle : Act Unit).exec' t))))

/-- The mirror commands, and the declaration of a lost package: the parts named here together. -/
def Obligations.MirrorAndPackageLoss : Prop :=
  Rules.MirrorCommands ∧ Rules.PackageLossDeclared

/-! ### Partitions, identity and the management channels -/

/-- R616 to R619: ENABLE, INVAL and TEARDOWN, from the states of a partition that allow them and from the others; a teardown without bound
streams waits for its links next. -/
def Obligations.PartitionCommands : Prop :=
  ∀ (src : Src) (part : BitVec 10) (s : State),
    let b := s.blk
    let p := part.toNat
    let st := b.partState p
    let ends (i : Instr) (t : Blk) (res : Nat) : Prop := exec i s = .next (s.after (t.setReg Reg.prtSts (prtSts false res p)))
    b.takes src Reg.prtCmd = true → bit (b.reg Reg.prtSts) 63 = false →
    (st = 0 → p ≠ 0 → ends (.prtEnable src part) (b.setFld (Reg.prtPart p) 63 60 9) 0) ∧
    (st ≠ 0 ∨ p = 0 → ends (.prtEnable src part) b 0x0A) ∧
    (p = 0 ∨ st = 1 → b.fld Reg.prtArg 63 59 ≤ 26 → ends (.prtInval src part) b 0) ∧
    (¬(p = 0 ∨ st = 1) ∨ 26 < b.fld Reg.prtArg 63 59 → ends (.prtInval src part) b 0x0A) ∧
    (st ≠ 1 ∨ p = 0 → ends (.prtTeardown src part) b 0x0A) ∧
    (st = 1 → p ≠ 0 → b.streamsOf p = [] → exec (.prtTeardown src part) s = .next (s.after
      (({ b.setFld (Reg.prtPart p) 62 60 2 with sec := { b.sec with tear := 2 } } : Blk).setReg Reg.prtSts
        (prtSts true (b.fld Reg.prtSts 55 48) p))))

/-- R622, R633 to R637, R721, R722: what a channel that is served is answered: SPDM requests of class C0, identity, the start report; one that
is not served is not answered. -/
def Obligations.IdentityRequests : Prop :=
  ∀ (ch : Channel) (s : State),
    let b := s.blk
    let answers (i : Instr) (a : Answer) (bs : List Byte) : Prop := exec i s = .next (s.after { b with sec := { b.sec with code := a, resp := bs } })
    (b.serves ch 0 = false →
      exec (.getVersion ch) s = .next (s.after b) ∧ exec (.getIdentity ch) s = .next (s.after b) ∧
      exec (.pldmPlatformRequest ch .readEvents) s = .next (s.after b)) ∧
    (b.serves ch 0 = true →
      answers (.getVersion ch) .ok [0x12] ∧
      answers (.getCapabilities ch) .ok [0x16, 0, 0, 0] ∧
      (∀ a h, answers (.negotiateAlgorithms ch a h) .ok (natLe 4 (a &&& 0x200) ++ natLe 4 (h &&& 0x4))) ∧
      answers (.getDigests ch) .ok (sha b.chain) ∧
      (∀ o l, answers (.getCertificate ch 0 o l) .ok ((b.chain.drop o).take l)) ∧
      (∀ slot o l, slot ≠ 0 → answers (.getCertificate ch slot o l) (.error 0x01) []) ∧
      (∀ nonce, answers (.challenge ch 0 nonce) .ok (sha b.chain ++ Config.ed25519Sign b.aliasKey (nonce ++ sha b.chain))) ∧
      (∀ slot nonce, slot ≠ 0 → answers (.challenge ch slot nonce) (.error 0x01) []) ∧
      (∀ sign nonce,
        let sig (m : List Byte) : List Byte := if sign then Config.ed25519Sign b.aliasKey (nonce ++ m) else []
        answers (.getMeasurements ch 0 sign nonce) .ok ([0x08] ++ sig [0x08]) ∧
        (∀ i, 1 ≤ i → i ≤ 8 →
          let m := natLe 1 i ++ natLe 1 (if i = 1 then 0 else if i < 7 then 1 else if i = 7 then 3 else 2) ++ b.meas (i - 1)
          answers (.getMeasurements ch i sign nonce) .ok (m ++ sig m)) ∧
        (∀ i, 8 < i → i ≠ 0xFF → answers (.getMeasurements ch i sign nonce) (.error 0x01) [])) ∧
      answers (.getIdentity ch) .ok (0 :: wordsBytes [b.reg Reg.pkgIdent, b.reg Reg.pkgSerial, b.reg Reg.pkgCap, b.reg (Reg.pkgSpare 0),
        b.reg (Reg.pkgSpare 1)]) ∧
      (∀ n, exec (.pldmPlatformRequest ch (.readLog n)) s = .next (s.after
        { b with sec := { b.sec with code := .ok, resp := wordsBytes ((List.range 4).map (fun i => b.reg (Reg.secLog (4 * (n % 1024) + i)))) } })) ∧
      exec (.pldmPlatformRequest ch .readEvents) s = .next (s.after
        { b with dbg := { b.dbg with bmc := [] }, sec := { b.sec with code := .ok, resp := b.dbg.bmc.flatMap wordsBytes } }) ∧
      (∀ eid byte0, byte0 ≠ 1 → answers (.getStartReport ch eid byte0) .ok (0 :: wordsBytes (b.startSts ::
        ((List.range 9).map (fun i => b.reg (Reg.pkgStage i)) ++ [b.reg Reg.pkgUnitMem, b.reg Reg.pkgUnitUcie])))) ∧
      (∀ eid, ∃ t : Blk, exec (.getStartReport ch eid 1) s = .next (s.after t) ∧ eid ∈ t.start.subs ∧ t.regs = b.regs))

/-- R623 to R628, R631, R632, R637, R719: requests that change something: the policy, the owner key, an update and its activation, a TLS connection
and the debug unlock; one that the policy denies changes nothing and is recorded. -/
def Obligations.TrustRequests : Prop :=
  ∀ (ch : Channel) (s : State),
    let b := s.blk
    let goes (i : Instr) (t : Blk) : Prop := exec i s = .next (s.after t)
    let refused (i : Instr) (pldm : Bool) : Prop := goes i ((do
      changeLog (chanWho ch) 0x09 0 0 0
      reply (if pldm then .notReady else .error 0x01) : Act Unit).exec' b)
    (∀ v, b.serves ch 3 = true →
      (b.policy ch 3 = true → ∃ t : Blk, goes (.secPolicyWrite ch v) t ∧ t.reg Reg.secPolicy = v &&& 0xFFFF ∧ t.sec.code = .ok) ∧
      (b.policy ch 3 = false → refused (.secPolicyWrite ch v) true)) ∧
    (∀ key cur sig, b.serves ch 3 = true →
      (b.policy ch 3 = true → (b.ownerSet = false ∨ (sha cur = b.ownerDigest ∧ Config.ed25519Verify cur key sig = true)) →
        ∃ t : Blk, goes (.setOwnerKey ch key cur sig) t ∧ t.ownerDigest = sha key ∧ t.ownerSet = true ∧ t.sec.code = .ok) ∧
      (b.policy ch 3 = true → b.ownerSet = true → ¬(sha cur = b.ownerDigest ∧ Config.ed25519Verify cur key sig = true) →
        refused (.setOwnerKey ch key cur sig) false)) ∧
    (b.serves ch 2 true = true →
      (∀ img, b.policy ch 2 = false → refused (.pldmFirmwareUpdate ch img) true) ∧
      (b.policy ch 2 = true → (b.sec.agent = none ∨ b.sec.agent = some ch) →
        (∃ t : Blk, goes (.pldmFirmwareUpdate ch none) t ∧ t.sec.agent = some ch ∧ t.sec.code = .ok) ∧
        (∀ i, ∃ t : Blk, goes (.pldmFirmwareUpdate ch (some i)) t ∧ t.sec.agent = none ∧ t.sec.code = .ok ∧
          t.bank (!b.bankRun) = some i ∧ t.bank b.bankRun = b.bank b.bankRun)) ∧
      (∀ img c, b.policy ch 2 = true → b.sec.agent = some c → c ≠ ch → ∃ t : Blk, goes (.pldmFirmwareUpdate ch img) t ∧
        t.sec.code = .inUpdate ∧ t.sec.bank0 = b.sec.bank0 ∧ t.sec.bank1 = b.sec.bank1)) ∧
    (b.serves ch 1 = true → b.policy ch 2 = true →
      (b.started = false → b.stopped = false → goes (.firmwareActivate ch)
        { b with sec := { b.sec with activate := some ch, code := .ok, resp := [] } }) ∧
      (b.started = true → ∃ t : Blk, goes (.firmwareActivate ch) t ∧ t.sec.activate = none ∧ t.sec.code = .ok)) ∧
    (∀ version suite scheme chain, b.awake = true → b.stopped = false → b.stageOk 1 = true →
      goes (.tlsConnect version suite scheme chain) { b with sec := { b.sec with
        tls := decide (version = 0x0304) && decide (suite = 0x1302) && decide (scheme = 0x0807) && b.ownerSet &&
          Config.chainVerify chain (BitVec.ofNat 512 (beNat b.ownerDigest)) } }) ∧
    (∀ t, b.serves ch 0 = true →
      (b.tokenOk t = true → b.tenants = false → ∃ u : Blk, goes (.debugUnlock ch t) u ∧ u.sec.unlocked = true ∧ bit (u.reg Reg.secStatus) 50 = true ∧
        u.fld Reg.secStatus 31 0 = (Config.nonce (b.sec.nonceAt + 1)).toNat) ∧
      (b.tokenOk t = false ∨ b.tenants = true → ∃ u : Blk, goes (.debugUnlock ch t) u ∧ u.sec.unlocked = b.sec.unlocked ∧
        u.sec.code = .error 0x01 ∧ u.fld Reg.secStatus 31 0 = (Config.nonce (b.sec.nonceAt + 1)).toNat))

/-! ### Power, time and resets -/

/-- R667 to R670, R672 to R675, R773: the supplies and the protections: main good and its loss, a trip and an overvoltage, the auxiliary input,
the steps of the throttle level under the power and heat bounds, and the thermal trip. -/
def Rules.SuppliesAndHeat : Prop :=
  ∀ (s : State),
    let b := s.blk
    let mon := Reg.aonPwrMon
    let n := b.fld mon 19 16
    let goes (i : Instr) (t : Blk) : Prop := exec i s = .next (s.after t)
    let lost (i : Instr) : Prop := ∃ t : Blk, goes i t ∧ t.pwr.main = false ∧ t.pwr.powerFail = true ∧ t.pwr.on = false ∧
      t.pwr.off = !b.pwr.asleep ∧ t.dbg.bmc.length = b.dbg.bmc.length + 1 ∧
      (b.pwr.asleep = false → t.pwr.cause = b.pwr.cause ||| 2 ^ 51)
    let up : Blk := { b with pwr := { b.pwr with main := true, powerFail := false } }
    (b.pwr.aux = true → b.pwr.main = false →
      (b.pwr.off = false ∨ b.pwr.resetWait = true → goes .mainGood up) ∧
      (b.pwr.off = true → b.pwr.resetWait = false → goes .mainGood ((warmStart false b.pwr.cause).exec' (up.setFld Reg.aonPwrSts 47 44 6)))) ∧
    (b.pwr.aux = true → b.pwr.main = true → (∀ v, lost (.mainLoss v)) ∧ ∀ v, lost (.mainTrip v)) ∧
    (goes .auxLoss { b with pwr := { b.pwr with aux := false, main := false, on := false, asleep := false, off := false, resetWait := false } }) ∧
    (∀ badA badB, b.pwr.aux = false → ∃ t : Blk, goes (.auxRise badA badB) t ∧ t.pwr.aux = true ∧ t.pwr.main = false ∧ t.pwr.on = false ∧
      t.sec.unlocked = false ∧ t.slots = [] ∧ t.xpt = {} ∧ bit (t.reg Reg.aonLost) 48 = true ∧
      (((b.pwr.norA.valid && !badA) || (b.pwr.norB.valid && !badB)) = false → bit (t.reg Reg.aonLost) 54 = true ∧
        t.pwr.norA.valid = true ∧ t.pwr.norB.valid = true)) ∧
    (b.pwr.on = true →
      (∀ v, goes (.mainOvervoltage v) (((b.setFld mon 63 48 (min v 65535)).setFld mon 13 13 1).setFld mon 19 16 12)) ∧
      (∀ w x y, (x || y) = true → goes (.powerSample w x y)
        (((b.setFld mon 47 32 (min w 65535)).setFld mon 15 15 1).setFld mon 19 16 (min (n + 1) 12))) ∧
      (∀ w, bit (b.reg mon) 14 = false → bit (b.reg mon) 13 = false → goes (.powerSample w false false)
        (((b.setFld mon 47 32 (min w 65535)).setFld mon 15 15 0).setFld mon 19 16 (min (n - 1) 12))) ∧
      (∀ w, (bit (b.reg mon) 14 = true ∨ bit (b.reg mon) 13 = true) → goes (.powerSample w false false)
        ((b.setFld mon 47 32 (min w 65535)).setFld mon 15 15 0)) ∧
      (∀ l : List Nat, 4 * min (b.fld Reg.aonPwrCfg 15 8) 105 < l.foldl max 0 → ∃ t : Blk, goes (.thermalThrottle l) t ∧
        t.reg mon = (((b.setFld mon 31 20 (min (l.foldl max 0) 4095)).setFld mon 14 14 1).setFld mon 19 16 (min (n + 1) 12)).reg mon ∧
        t.pwr.hostSlow = min (b.pwr.hostSlow + 1) 8) ∧
      (∀ l : List Nat, l.foldl max 0 ≤ 4 * min (b.fld Reg.aonPwrCfg 15 8) 105 → 4 * min (b.fld Reg.aonPwrCfg 15 8) 105 < l.foldl max 0 + 12 →
        goes (.thermalThrottle l) (b.setFld mon 31 20 (min (l.foldl max 0) 4095))) ∧
      (∀ q k, 460 ≤ k → ∃ t : Blk, goes (.thermalTrip q k) t ∧ t.pwr.thermTrip = true ∧ t.pwr.on = false ∧ t.pwr.off = true ∧
        t.pwr.cause = b.pwr.cause ||| 2 ^ 52 ∧ t.dbg.bmc.length = b.dbg.bmc.length + 1) ∧
      (∀ q k, k < 460 → goes (.thermalTrip q k) b)) ∧
    (goes .overvoltageEnd (b.setFld mon 13 13 0))

/-- R677, R678, R681 to R686: the clocks of a cluster stop when no core of it can issue, start again, and stretch in a droop; package time is
stepped, qualified and latched, and COARSE follows it or advances with the crystal. -/
def Rules.TimeAndClocks : Prop :=
  ∀ (s : State) (die : Fin 2) (cl : Fin 5),
    let b := s.blk
    let key (i : Nat) : Nat := coreKey die.val (4 * cl.val + i)
    let goes (i : Instr) (t : Blk) : Prop := exec i s = .next (s.after t)
    ((∀ i < 4, b.busyCore (key i) = false) → ∃ t : Blk, goes (.clusterClockStop die cl) t ∧ t.slots = b.slots ∧
      ∀ i < 4, t.core (key i) = { b.core (key i) with clockStopped := true }) ∧
    ((∃ i < 4, b.busyCore (key i) = true) → goes (.clusterClockStop die cl) b) ∧
    (∃ t : Blk, goes (.clusterClockStart die cl) t ∧ t.slots = b.slots ∧ ∀ i < 4, t.core (key i) = { b.core (key i) with clockStopped := false }) ∧
    (∀ n, ∃ t : Blk, goes (.clockDroop die cl n) t ∧ t.slots = b.slots ∧ ∀ i < 4, t.core (key i) =
      { b.core (key i) with stretched := (b.core (key i)).stretched + (if (b.core (key i)).clockStopped then 0 else min n 64) }) ∧
    (∀ src (v : Word), b.takes src Reg.aonTimeStep = true → goes (.aonTimeStepWrite src v)
      { b with aon := { b.aon with ns := (b.aon.ns + v.toNat) % 2 ^ 64 } }) ∧
    (∀ src, b.takes src Reg.aonTimeCtrl = true → goes (.timeLock src) (b.setFld Reg.aonTimeCtrl 63 63 0)) ∧
    (goes .qualTimeout (b.setFld Reg.aonTimeCtrl 63 63 0)) ∧
    (bit (b.reg Reg.aonTimeCtrl) 61 = true → goes .ppsEdge ((b.setReg Reg.aonPps (word b.now)).setFld Reg.aonTimeCtrl 60 60 1)) ∧
    (bit (b.reg Reg.aonTimeCtrl) 61 = false → goes .ppsEdge b) ∧
    (b.pwr.aux = true → b.pwr.on = true → goes .crystalTick
      { b with aon := { b.aon with coarse := b.aon.ns % 2 ^ 64 * 2 ^ 32 + b.aon.frac / 2 ^ 8 } }) ∧
    (b.pwr.aux = true → b.pwr.on = false → goes .crystalTick { b with aon := { b.aon with coarse := b.aon.coarse + 131072000000000 } })

/-- Supplies, thermal levels, power limits, and the time base: the parts named here together. -/
def Obligations.SuppliesHeatAndTime : Prop :=
  Rules.SuppliesAndHeat ∧ Rules.TimeAndClocks

/-- R687 to R697, R781: Idle, Doze and Sleep: when each is entered or refused, what each leaves, and what each source of R692 and R697 wakes. -/
def Obligations.PowerStates : Prop :=
  ∀ (s : State),
    let b := s.blk
    let sts := Reg.aonPwrSts
    let st := b.fld sts 63 61
    let goes (i : Instr) (t : Blk) : Prop := exec i s = .next (s.after t)
    let woken (code : Nat) (t : Blk) : Blk := (warmStart true (b.pwr.cause ||| 2 ^ 50)).exec' (t.setFld sts 47 44 code)
    let rise (code : Nat) (t : Blk) : Blk := (t.setFld sts 63 61 4).setFld sts 47 44 code
    (b.mayIdle = true → goes .idleEnter (b.setFld sts 63 61 1)) ∧ (b.mayIdle = false → goes .idleEnter b) ∧
    (∀ why, (st = 1 → goes (.idleExit why) (b.setFld sts 63 61 0)) ∧ (st ≠ 1 → goes (.idleExit why) b)) ∧
    (∀ src, bit (b.reg sts) 60 = false →
      (b.mayDoze = true → goes (.doze (.reg src)) ((b.setFld sts 63 61 2).setFld sts 60 60 1)) ∧
      (b.mayDoze = false → goes (.doze (.reg src)) (b.setFld sts 55 48 0x0A)) ∧
      (b.takes src Reg.aonPwrCmd = true → (st < 2 ∨ 4 ≤ st) → goes (.wake src) (b.setFld sts 55 48 0)) ∧
      (b.takes src Reg.aonPwrCmd = true → st = 3 → goes (.wake src) (rise 1 ((b.setFld sts 55 48 0).setFld sts 60 60 1))) ∧
      (b.started = true → b.pwr.asleep = false → b.mem.merge = [] → ∃ t : Blk, goes (.sleep (.reg src)) t ∧ t.pwr.asleep = true ∧
        t.pwr.on = false ∧ t.aon = b.aon.aligned ∧ t.host.held = [] ∧ t.sec.tls = false ∧ t.fld sts 63 61 = 0 ∧ t.pwr.newest.regs = t.retained)) ∧
    (∀ src, bit (b.reg sts) 60 = true → goes (.doze (.reg src)) b ∧ goes (.sleep (.reg src)) b) ∧
    (∀ us bad, st = 3 → goes (.dozeExit .mgmt us bad) ((do dozeEnd us bad; releaseHeld : Act Unit).exec' (rise 5 b))) ∧
    (∀ us bad, st = 4 → b.pwr.diesOff = false → b.host.held = [] → goes (.dozeExit .command us bad)
      ((((b.elapse (us * 1000)).setFld sts 63 61 0).setFld sts 60 60 0).setFld sts 31 0 (min us (2 ^ 32 - 1)))) ∧
    (b.pwr.asleep = true → b.pwr.aux = true →
      goes (.sleepExit .pattern) (woken 2 b) ∧ goes (.sleepExit .wakeN) (woken 3 b) ∧ goes (.sleepExit .mgmt) (woken 5 b) ∧
      goes (.sleepExit .alarm) ((warmStart true (b.pwr.cause ||| 2 ^ 50)).exec' ((b.setFld sts 47 44 4).setFld Reg.aonAlarm 63 63 0)) ∧
      (b.pwr.rstLow = false → st ≠ 1 → goes .wakeNAssert (woken 3 b)) ∧
      (bit (b.reg Reg.aonAlarm) 63 = true → goes .alarmExpiry
        ((warmStart true (b.pwr.cause ||| 2 ^ 50)).exec' ((b.setFld sts 47 44 4).setFld Reg.aonAlarm 63 63 0)))) ∧
    (b.pwr.rstLow = true → goes .wakeNAssert b) ∧
    (b.pwr.rstLow = false → b.pwr.asleep = false → st = 1 → goes .wakeNAssert (b.setFld sts 63 61 0)) ∧
    (bit (b.reg Reg.aonAlarm) 63 = false → goes .alarmExpiry b) ∧
    (bit (b.reg Reg.aonAlarm) 63 = true → b.pwr.asleep = false → st = 3 → goes .alarmExpiry ((rise 4 b).setFld Reg.aonAlarm 63 63 0))

/-- R62, R352, R675, R698 to R705: resets: a warm reset, from a command, the signal or a cooled sensor, keeps the retained fields and the tiers'
bytes, zeroes the stores, advances GEN, counts the start and notes its cause; a factory restore first gives every Persistent item but
the defect record its Reset value; the SPI NOR takes the Persistent image into its older copy. -/
def Obligations.ResetsAndRestore : Prop :=
  ∀ (s : State),
    let b := s.blk
    let goes (i : Instr) (t : Blk) : Prop := exec i s = .next (s.after t)
    let cool : Prop := b.fld Reg.aonPwrMon 31 20 < 380
    (∀ src, bit (b.reg Reg.aonPwrSts) 60 = false → cool →
      goes (.warmReset (.reg src) 0xA5) ((warmStart false (b.pwr.cause ||| 2 ^ 49)).exec' b)) ∧
    (∀ src key, key ≠ 0xA5 → goes (.warmReset (.reg src) key) b ∧ goes (.factoryRestore (.reg src) key) b) ∧
    (∀ src, bit (b.reg Reg.aonPwrSts) 60 = false → ¬cool → goes (.warmReset (.reg src) 0xA5)
      { b with pwr := { b.pwr with resetWait := true, cause := b.pwr.cause ||| 2 ^ 49 } }) ∧
    (b.pwr.resetWait = true → goes .sensorsBelowResetLimit ((warmStart false b.pwr.cause).exec' b)) ∧
    (b.pwr.resetWait = false → goes .sensorsBelowResetLimit b) ∧
    (b.pwr.aux = true → b.pwr.rstLow = false → b.pwr.asleep = false → cool → goes .resetAssert
      ((warmStart false (b.pwr.cause ||| 2 ^ 49)).exec' { b with pwr := { b.pwr with rstLow := true } })) ∧
    (goes .resetRelease { b with pwr := { b.pwr with rstLow := false } }) ∧
    (bit (b.reg Reg.aonPwrSts) 60 = false → ∃ t : Blk, goes (.factoryRestore (.reg .control) 0xA5) t ∧
      t.pwr.keep.gpioOut = 0 ∧ t.pwr.keep.serials = [] ∧ t.pwr.keep.number = none ∧ t.pwr.norA.valid = true ∧ t.pwr.norB.valid = true) ∧
    (b.pwr.aux = true → b.pwr.rstLow = false → b.norPend = true → ∃ t : Blk, goes .persistentNorWrite t ∧ t.regs = b.regs ∧
      t.pwr.newest = ⟨b.pwr.newest.seq + 1, true, b.retained, b.pwr.keep⟩ ∧ t.norPend = false) ∧
    (b.norPend = false → goes .persistentNorWrite b) ∧
    (∀ (sleep : Bool) (c : Nat), (b.regs.map (·.1)).Nodup → b.pwr.keep.number = none → ∃ t : Blk, (warmStart sleep c).exec' b = t ∧
      (∀ off d, regDesc off = some d →
        off ∉ [Reg.aonLost, Reg.aonAlarm, Reg.aonPwrSts, Reg.macWakeSts, Reg.memSeal, Reg.pkgStartCtrl, Reg.pkgIdent, Reg.pkgSerial,
          Reg.pkgCap, Reg.secStatus] → t.reg off = (d.reset &&& ~~~d.ret) ||| (b.reg off &&& d.ret)) ∧
      t.reg Reg.aonAlarm = b.reg Reg.aonAlarm ∧ t.reg Reg.aonLost = b.reg Reg.aonLost ||| word c ∧
      t.fld Reg.memSeal 15 0 = (b.fld Reg.memSeal 15 0 + 1) % 2 ^ 16 ∧
      t.fld Reg.pkgStartCtrl 31 16 = min (b.fld Reg.pkgStartCtrl 31 16 + 1) 65535 ∧
      t.slots = [] ∧ t.outst = [] ∧ t.xpt = {} ∧ t.col = {} ∧ t.engines = [] ∧ t.aon = b.aon ∧ t.pwr.on = false ∧
      ∀ a, memRead t.mem.cells a 1 = if inStores a then [0] else memRead b.mem.cells a 1)

/-! ### Bring-up -/

/-- R707, R709 to R720, R723, R728: the stages of a start: each begins only when those before it have passed, ends with pass, degraded or fail,
and a failed one stops the start; the ROM and firmware stages measure what they run, POWER loads the time base, COMPUTE maps the cores,
FABRIC starts the lanes, HOST ends in READY. -/
def Rules.BringUpStages : Prop :=
  ∀ (s : State),
    let b := s.blk
    let goes (i : Instr) (t : Blk) : Prop := exec i s = .next (s.after t)
    let fails (i : Instr) (n cause : Nat) : Prop := ∃ t : Blk, goes i t ∧ t.stageRes n = 4 ∧ t.fld (Reg.pkgStage n) 55 48 = cause ∧ t.stopped = true
    (∀ bad us, b.mayBegin 0 = false → goes (.stageRom bad us) b) ∧
    (∀ us, b.mayBegin 0 = true → b.chooseBank = none → b.started = false → fails (.stageRom [] us) 0 0x01) ∧
    (∀ us one fell x, b.mayBegin 0 = true → b.chooseBank = some (one, fell) → b.bank one = some x → b.started = false →
      x.svn < 256 → ∃ t : Blk, goes (.stageRom [] us) t ∧ t.stageRes 0 = 2 ∧ t.bankRun = one ∧ bit (t.reg Reg.secStatus) 52 = fell ∧
        t.fld Reg.secStatus 55 54 = x.slot.val ∧ t.fld Reg.secStatus 39 32 = x.svn ∧
        t.meas 0 = sha (b.meas 0 ++ sha Config.romVersion) ∧ t.meas 1 = sha (b.meas 1 ++ sha (nth x.components [] 0))) ∧
    (∀ ok us, b.mayBegin 1 = false → goes (.stageFirmware ok us) b) ∧
    (∀ us, b.mayBegin 1 = true → b.started = false → fails (.stageFirmware false us) 1 0x12) ∧
    (∀ us x, b.mayBegin 1 = true → b.started = false → b.runImage = some x → ∃ t : Blk, goes (.stageFirmware true us) t ∧ t.stageRes 1 = 2 ∧
      ∀ i < 4, t.meas (i + 2) = sha (b.meas (i + 2) ++ sha (nth x.components [] (i + 1)))) ∧
    (∀ r us, b.mayBegin 2 = false → goes (.stagePower r us) b) ∧
    (∀ us, b.mayBegin 2 = true → b.started = false → fails (.stagePower .rail us) 2 0x02 ∧ fails (.stagePower .pll us) 2 0x03) ∧
    (∀ us, b.mayBegin 2 = true → b.started = false → ∃ t : Blk, goes (.stagePower .ok us) t ∧ t.stageRes 2 = 2 ∧ t.pwr.on = true ∧
      t.aon.ns = b.aon.coarse / 2 ^ 32 ∧ t.fld Reg.aonTimeCtrl 63 63 = 1) ∧
    (∀ us, b.mayBegin 6 = false → goes (.stageCompute us) b) ∧
    (∀ us, b.mayBegin 6 = true → b.started = false → ∃ t : Blk, goes (.stageCompute us) t ∧ (t.stageRes 6 = 2 ∨ t.stageRes 6 = 3) ∧
      t.reg Reg.pkgSmapGen = 0 ∧ ∀ d < 2, b.dieOut d = false → b.fld (Reg.pkgDefect d) 39 20 = 0 →
        let use := (List.range 20).filter (fun p => (b.goodCores d).testBit p)
        16 ≤ use.length → ∀ l p, l < 16 → use[l]? = some p → t.physOf d l = some p) ∧
    (b.mayBegin 7 = false → goes .stageFabric b) ∧
    (b.mayBegin 7 = true → b.started = false → ∃ t : Blk, goes .stageFabric t ∧ t.fld Reg.fabCtrl 39 28 = b.fld Reg.fabCtrl 51 40 ∧ t.stageRes 7 ≠ 0) ∧
    (∀ ok us, b.mayBegin 8 = false → goes (.stageHost ok us) b) ∧
    (∀ us, b.mayBegin 8 = true → b.started = false → ∃ t : Blk, goes (.stageHost true us) t ∧ t.stageRes 8 = 2 ∧ t.started = true ∧
      t.host.coresStopped = false ∧ t.host.pcieDown = []) ∧
    (∀ us, b.mayBegin 8 = true → b.started = false → fails (.stageHost false us) 8 0x30)

/-- R710, R711, R713, R714, R723 to R728: units that train: a stage of units begins with those it trains, a unit that passes leaves the set,
one that fails is trained fully once and then counts as failed, a stage out of time fails what has not finished; START_CLEAR
forgets the states. -/
def Rules.UnitsTrain : Prop :=
  ∀ (s : State),
    let b := s.blk
    let goes (i : Instr) (t : Blk) : Prop := exec i s = .next (s.after t)
    (b.mayBegin 3 = false → goes .stageUcie b) ∧ (b.mayBegin 4 = false → goes .stageHbm b) ∧ (∀ spd, b.mayBegin 5 = false → goes (.stageDdr5 spd) b) ∧
    (b.mayBegin 3 = true → (∃ u < 24, ucieFitted u = true ∧ b.unitState 3 u ≠ 3) → ∃ t : Blk, goes .stageUcie t ∧ t.stageRes 3 = 1 ∧
      ∀ u < 24, ucieFitted u = true → b.unitState 3 u ≠ 3 → (3, u) ∈ t.start.training) ∧
    (b.mayBegin 4 = true → (∃ u < 8, (b.fld Reg.pkgCap 39 32).testBit u = true ∧ b.unitState 4 u ≠ 3) → ∃ t : Blk, goes .stageHbm t ∧ t.stageRes 4 = 1 ∧
      ∀ u < 8, (b.fld Reg.pkgCap 39 32).testBit u = true → b.unitState 4 u ≠ 3 → (4, u) ∈ t.start.training) ∧
    (∀ spd, b.mayBegin 5 = true → b.started = false → nth spd none 0 = none → b.start.training = [] → ∃ t : Blk, goes (.stageDdr5 spd) t ∧ t.stageRes 5 = 4 ∧
      t.fld (Reg.pkgStage 5) 55 48 = 0x12 ∧ t.stopped = true) ∧
    (∀ x, b.mayBegin 5 = true → b.spdOk x = true → b.fld Reg.pkgUnitMem 31 16 = 0 → ∃ t : Blk, goes (.stageDdr5 [some x]) t ∧ t.stageRes 5 = 1 ∧
      (5, 0) ∈ t.start.training) ∧
    (∀ n u c, b.stageRes n = 1 → (n, u) ∈ b.start.training → n ∈ [3, 4, 5] → (∃ v, v ≠ u ∧ (n, v) ∈ b.start.training) →
      (∃ t : Blk, goes (.unitTrainingDone n u true c) t ∧ (n, u) ∉ t.start.training ∧ t.stageRes n = 1) ∧
      ((n, u) ∉ b.start.full → ∃ t : Blk, goes (.unitTrainingDone n u false c) t ∧ (n, u) ∈ t.start.full ∧ t.start.training = b.start.training) ∧
      ((n, u) ∈ b.start.full → ∃ t : Blk, goes (.unitTrainingDone n u false c) t ∧ (n, u) ∈ t.start.failed ∧ (n, u) ∉ t.start.training)) ∧
    (b.stageRes 7 = 1 → goes (.stageTimeout 7) (fabricEnd.exec' b)) ∧
    (∀ n, b.stageRes n ≠ 1 → goes (.stageTimeout n) b) ∧
    (∀ n, n ∈ [3, 4, 5] → b.stageRes n = 1 → b.fld (Reg.pkgStage n) 59 56 ≠ 2 → (∃ u, (n, u) ∈ b.start.training) →
      (∀ u, (n, u) ∈ b.start.training → (n, u) ∉ b.start.full) → b.start.training.Nodup →
      ∃ t : Blk, goes (.stageTimeout n) t ∧ t.start.training = b.start.training ∧ ∀ u, (n, u) ∈ b.start.training → (n, u) ∈ t.start.full) ∧
    (∀ src, src = .control ∨ bit (b.reg Reg.secPolicy) 0 = true → ∃ t : Blk, goes (.startClear src) t ∧
      t.reg Reg.pkgUnitMem = 0 ∧ t.reg Reg.pkgUnitUcie = 0)

/-- The stages of bring-up, and the units they train: the parts named here together. -/
def Obligations.BringUp : Prop :=
  Rules.BringUpStages ∧ Rules.UnitsTrain

/-! ### Faults, self-tests, observation -/

/-- R63 to R68, R640 to R656, R660, R664: faults of cores, dies and control cores: a core in migrate class with a spare begins to move to it,
one without is marked suspect; a lost core is fenced and its place goes to a spare; a lost die is out of service; a control
core's sibling restarts it until its third expiry. -/
def Obligations.FaultsContained : Prop :=
  ∀ (s : State) (die : Fin 2) (p : Fin 20),
    let b := s.blk
    let d := die.val
    let key := coreKey d p.val
    let goes (i : Instr) (t : Blk) : Prop := exec i s = .next (s.after t)
    let quiet : Prop := b.slots = [] ∧ b.engines = [] ∧ b.xpt = {} ∧ b.col = {} ∧ b.runs = [] ∧ b.resid = [] ∧ b.outst = [] ∧ b.sigs = [] ∧
      b.flights = [] ∧ b.start.test = none ∧ b.mem.merge = []
    (∀ why, (b.logOf d p.val = none ∨ b.migrates d p.val why = false ∨ b.moving d p.val = true) → goes (.coreMigrate die p why) b) ∧
    (∀ why l q, b.logOf d p.val = some l → b.migrates d p.val why = true → b.dieOut d = false → b.moving d p.val = false → b.start.test = none →
      b.spareFor d p.val = some q →
      let t := b.setCore key { b.core key with moving := some (q, false), moveAt := b.aon.elapsed }
      (t.drained d p.val = false → goes (.coreMigrate die p why) t) ∧
      (t.drained d p.val = true → goes (.coreMigrate die p why) ((migrateEnd d p.val q l false).exec' t))) ∧
    (∀ why l, b.logOf d p.val = some l → b.migrates d p.val why = true → b.dieOut d = false → b.moving d p.val = false → b.spareFor d p.val = none →
      ∃ t : Blk, goes (.coreMigrate die p why) t ∧ bit (t.reg (Reg.pkgDefect d)) (20 + p.val) = true ∧ bit (t.reg (Reg.pkgDefect d)) (40 + p.val) = false ∧
        t.logOf d p.val = some l ∧ ∃ e ∈ t.dbg.evq, e.code = 0x04 ∧ e.pcore = p.val) ∧
    (b.moving d p.val = true → b.drained d p.val = false → goes (.migrationDrainTimeout die p)
      ((coreLoss d p.val 0 (b.core key).moveAt).exec' b)) ∧
    (b.moving d p.val = false ∨ b.drained d p.val = true → goes (.migrationDrainTimeout die p) b) ∧
    (∀ source, (b.core key).fenced = true ∨ b.dieOut d = true → goes (.coreFaultDetect die p source) b) ∧
    (∀ source l, quiet → (b.core key).fenced = false → b.dieOut d = false → b.logOf d p.val = some l →
      (∀ y < 16, b.physOf d y = some p.val → y = l) →
      ∃ t : Blk, goes (.coreFaultDetect die p source) t ∧ (t.core key).fenced = true ∧ bit (t.reg (Reg.pkgDefect d)) (20 + p.val) = true ∧
        (t.physOf d l = none ∨ ∃ q, q ≠ p.val ∧ q < 20 ∧ t.physOf d l = some q) ∧ t.logOf d p.val = none ∧
        t.fld Reg.pkgSmapGen 31 0 = (b.fld Reg.pkgSmapGen 31 0 + 1) % 2 ^ 32 ∧ ∃ e ∈ t.dbg.evq, e.code = 0x03 ∧ e.pcore = p.val ∧ e.d1 = source) ∧
    (∀ struct addr, b.dieOut d = true → goes (.dieFault die struct addr) b) ∧
    (∀ struct addr, quiet → b.dieOut d = false → b.linkDown d = true → b.stageRes 7 ≠ 1 → (∀ n ∈ lanesOf d, b.laneSt n ≠ 5) →
      ∃ t : Blk, goes (.dieFault die struct addr) t ∧ t.dieOut d = true ∧ t.pwr.faultN = true ∧ (∀ l < 16, t.physOf d l = none) ∧
        (∀ i < 20, (t.core (coreKey d i)).fenced = true) ∧ ∃ e ∈ t.dbg.evq, e.code = 0x05 ∧ e.die = d ∧ e.d0 = struct ∧ e.d1 = addr) ∧
    (∀ (x : Fin 3) (c : Fin 4), (b.liveCtl x.val).contains c.val = true → (x.val = 2 ∨ b.dieOut x.val = false) →
      (sget 0 b.start.wdogs (x.val * 4 + c.val) < 2 → (b.liveCtl x.val).filter (fun y => decide (y ≠ c.val)) ≠ [] →
        ∃ t : Blk, goes (.watchdogExpiry x c) t ∧ t.start.ccFenced = b.start.ccFenced ∧
          sget 0 t.start.wdogs (x.val * 4 + c.val) = sget 0 b.start.wdogs (x.val * 4 + c.val) + 1 ∧ ∃ e ∈ t.dbg.evq, e.code = 0x06 ∧ e.pcore = c.val) ∧
      (2 ≤ sget 0 b.start.wdogs (x.val * 4 + c.val) → (b.liveCtl x.val).filter (fun y => decide (y ≠ c.val)) ≠ [] →
        ∃ t : Blk, goes (.watchdogExpiry x c) t ∧ x.val * 4 + c.val ∈ t.start.ccFenced ∧ ∃ e ∈ t.dbg.evq, e.code = 0x07 ∧ e.pcore = c.val)) ∧
    (∀ (src : Src) (v : Word), b.takes src Reg.pkgEvtCfg = true → ∃ t : Blk, goes (.pkgEvtCfgWrite src v) t ∧
      bit (t.reg Reg.pkgEvtCfg) 63 = bit v 63 ∧
      (bit (b.reg Reg.pkgEvtCfg) 63 = true → bits (t.reg Reg.pkgEvtCfg) 47 12 = bits (b.reg Reg.pkgEvtCfg) 47 12 ∧ t.reg Reg.pkgEvtIdx = b.reg Reg.pkgEvtIdx) ∧
      (bit (b.reg Reg.pkgEvtCfg) 63 = false → bits (t.reg Reg.pkgEvtCfg) 47 12 = bits v 47 12 ∧
        t.reg Reg.pkgEvtIdx = if bit v 63 then 0 else b.reg Reg.pkgEvtIdx))

/-- R730 to R740: tests and calibrations: a unit that cannot be taken ends at once, a spare core and a lane that is not UP begin, an active core
without a spare and a lane in use wait or are refused; a result is reported, and a failed core is never used again. -/
def Rules.SelfTests : Prop :=
  ∀ (src : Src) (v : Word) (s : State),
    let b := s.blk
    let kind := bits v 55 52
    let d := bits v 47 46
    let u := bits v 45 40
    let goes (i : Instr) (t : Blk) : Prop := exec i s = .next (s.after t)
    let ended (i : Instr) (res : Nat) : Prop := ∃ t : Blk, goes i t ∧ t.start.test = none ∧ bit (t.reg Reg.pkgTestSts) 63 = false ∧
      t.fld Reg.pkgTestSts 55 52 = res ∧ ∃ e ∈ t.dbg.evq, e.code = 0x10
    let begun (i : Instr) (cal waits : Bool) : Prop := ∃ t : Blk, goes i t ∧ t.start.test = some ⟨cal, kind, d, u, waits, b.aon.elapsed, 0⟩ ∧
      bit (t.reg Reg.pkgTestSts) 63 = true ∧ bit (t.reg Reg.pkgTestSts) 62 = waits
    b.takes src Reg.pkgTestCmd = true →
    (b.start.test ≠ none → goes (.test src v) b ∧ goes (.calibrate src v) b) ∧
    (b.start.test = none →
      (b.testUnit false kind d u = false → ended (.test src v) 4) ∧
      (b.testUnit true kind d u = false → ended (.calibrate src v) 4) ∧
      (b.testUnit true kind d u = true → begun (.calibrate src v) true false) ∧
      (b.testUnit false kind d u = true → kind = 0 → b.logOf d u = none → begun (.test src v) false false) ∧
      (∀ l, b.testUnit false kind d u = true → kind = 0 → b.logOf d u = some l → b.spareFor d u = none → bit v 59 = false → ended (.test src v) 3) ∧
      (b.testUnit false kind d u = true → kind = 1 → b.laneSt (b.govern u) = 5 → bit v 59 = false → ended (.test src v) 3) ∧
      (b.testUnit false kind d u = true → kind = 1 → b.laneSt (b.govern u) = 5 → bit v 59 = true → begun (.test src v) false true) ∧
      (b.testUnit false kind d u = true → kind = 1 → b.laneSt (b.govern u) ≠ 5 → begun (.test src v) false false) ∧
      (goes (.testAbort src) b) ∧ (∀ pass sub us x, goes (.testComplete pass sub us x) b) ∧
      (∀ k n, bit (b.reg Reg.pkgCalCtrl) 0 = true → b.testUnit true k 0 n = true → k ∈ [2, 3, 4] →
        ∃ t : Blk, goes (.autoCalibration k n) t ∧ (b.unitState = t.unitState) ∧ (t.results (if k = 2 then 4 else if k = 3 then 5 else 3)).testBit n = true)) ∧
    (∀ x : TestOp, b.start.test = some x → x.kind < 16 → x.die < 4 → x.unit < 64 → ended (.testAbort src) 5) ∧
    (∀ x : TestOp, b.start.test = some x → x.waits = false → x.kind < 16 → x.die < 4 → x.unit < 64 →
      (∀ pass sub us y, x.cal = true → x.kind ≠ 0 → ended (.testComplete pass sub us y) (if pass then 1 else 2)) ∧
      (∀ sub us y, x.cal = false → x.kind = 0 → x.die < 2 → x.unit < 20 → b.moving x.die x.unit = false → b.logOf x.die x.unit = none →
        ∃ t : Blk, goes (.testComplete false sub us y) t ∧ t.start.test = none ∧ t.fld Reg.pkgTestSts 55 52 = 2 ∧
          bit (t.reg (Reg.pkgDefect x.die)) x.unit = true ∧ (t.core (coreKey x.die x.unit)).fenced = true))

/-- R748 to R760: samples, traces and the wait-for graph: samples leave only while they are enabled; a drained trace is empty; a long wait
and a DUMP begin one graph, further triggers are counted; a written one is reported by event 0x13. -/
def Rules.ObservationCommands : Prop :=
  ∀ (src : Src) (s : State),
    let b := s.blk
    let goes (i : Instr) (t : Blk) : Prop := exec i s = .next (s.after t)
    let triggered (i : Instr) (why k : Nat) : Prop :=
      (b.dbg.wfg = none → ∃ (t : Blk) (g : Wfg), goes i t ∧ t.dbg.wfg = some g ∧ g.trigger = why ∧ g.member = k ∧ g.start = b.now ∧
        bit (t.reg Reg.dbgWfgSts) 63 = true) ∧
      (b.dbg.wfg ≠ none → goes i (b.count Reg.dbgWfgSts 61 48 1))
    (bit (b.reg Reg.cntCtrl) 63 = false → goes .counterSample b ∧ (b.takes src Reg.cntCmd = true → goes (.cntCmdSample src) b)) ∧
    (∀ k x, b.slots = [(k, x)] → goes .counterSample ((quietly (sampleSlot k false)).exec' b) ∧
      (b.takes src Reg.cntCmd = true → goes (.cntCmdSample src) ((quietly (sampleSlot k false)).exec' b))) ∧
    (∀ die : Fin 2, bit (b.reg Reg.cntViewBase) 0 = false → sget 0 b.dbg.gap die.val = 0 → ∃ t : Blk, goes (.traceDrain die) t ∧
      sget [] t.dbg.trace die.val = [] ∧ t.regs = b.regs ∧ t.mem = b.mem) ∧
    (∀ (m : Member) (k : Nat), b.memberKey m = some k →
      ((b.slot k).bound = true → (b.slot k).wait ≠ .none → bit (b.reg Reg.dbgWfgCtrl) 62 = true → (∀ y ∈ b.slots, ∀ q, y.2.wait ≠ .credit q) → triggered (.hangTimeout m) 1 k) ∧
      ((b.slot k).wait = .none ∨ bit (b.reg Reg.dbgWfgCtrl) 62 = false → goes (.hangTimeout m) b)) ∧
    (b.takes src Reg.dbgWfgCtrl = true → b.slots = [] → triggered (.wfgDump src) 3 0) ∧
    (b.dbg.wfg = none → goes .wfgWritten b) ∧
    (∀ g, b.dbg.wfg = some g → b.slots = [] → b.fld Reg.dbgWfgBase 63 48 = 0 → ∃ t : Blk, goes .wfgWritten t ∧ t.dbg.wfg = none ∧
      bit (t.reg Reg.dbgWfgSts) 63 = false ∧ t.fld Reg.dbgWfgSts 47 32 = 0) ∧
    (∀ g, b.dbg.wfg = some g → b.slots = [] → b.fld Reg.dbgWfgBase 63 48 ≠ 0 → ∃ t : Blk, goes .wfgWritten t ∧ t.dbg.wfg = none ∧
      t.fld Reg.dbgWfgSts 31 0 = (b.fld Reg.dbgWfgSts 31 0 + 1) % 2 ^ 32 ∧
      ∃ e ∈ t.dbg.evq, e.code = 0x13 ∧ e.d0 = b.fld Reg.dbgWfgSts 31 0 + 1)

/-- Self-tests, calibrations, samples, traces and the wait-for graph: the parts named here together. -/
def Obligations.SelfTestsAndObservation : Prop :=
  Rules.SelfTests ∧ Rules.ObservationCommands
end

