-- ==== Sys2Proof/Laws/State.lean ====
section
/-! SUPPORT. What the named updates of State leave alone, one lemma per field, and what a read after a write gives. -/
namespace Sys2Proof.Machine

/-! ### Sparse maps -/

theorem sget_sput {α : Type} (d : α) (m : SMap α) (i j : Nat) (v : α) :
    sget d (sput m i v) j = if j = i then v else sget d m j := by
  induction m with
  | nil => simp [sput, sget]
  | cons p r ih =>
    obtain ⟨k, w⟩ := p
    simp only [sput]
    split
    · simp [sget]
    · split
      · next h1 h2 => subst h2; simp only [sget]; split <;> rfl
      · next h1 h2 =>
        simp only [sget, ih]
        by_cases hj : j = i
        · subst hj; simp [h2]
        · simp [hj]

theorem sget_sdel {α : Type} (d : α) (m : SMap α) (i j : Nat) :
    sget d (sdel m i) j = if j = i then d else sget d m j := by
  unfold sdel
  induction m with
  | nil => simp [sget]
  | cons p r ih =>
    obtain ⟨k, w⟩ := p
    simp only [List.filter_cons]
    by_cases hk : k = i
    · subst hk
      simp only [ne_eq, not_true_eq_false, decide_false, Bool.false_eq_true, if_false, ih, sget]
      by_cases hj : j = k <;> simp [hj]
    · simp only [ne_eq, hk, not_false_eq_true, decide_true, if_true, sget, ih]
      by_cases hj : j = i
      · subst hj; simp [Ne.symm hk]
      · simp [hj]

/-- Reading a sparse map after a write: the value at its key, the old one elsewhere. -/
theorem sget_sset {α : Type} [DecidableEq α] (d : α) (m : SMap α) (i j : Nat) (v : α) :
    sget d (sset d m i v) j = if j = i then v else sget d m j := by
  unfold sset
  split
  · next h => subst h; exact sget_sdel v m i j
  · exact sget_sput d m i j v

/-! ### Reading after a write -/

theorem Blk.reg_setReg (b : Blk) (o p : Nat) (v : Word) : (b.setReg o v).reg p = if p = o then v else b.reg p := by
  unfold Blk.reg Blk.setReg
  by_cases h : p = o
  · subst h; simp [sget_sset]
  · simp only [h, if_false, sset]
    split
    · rw [sget_sdel]; simp [h]
    · rw [sget_sput]; simp [h]

@[simp] theorem Blk.reg_setReg_same (b : Blk) (o : Nat) (v : Word) : (b.setReg o v).reg o = v := by simp [Blk.reg_setReg]
theorem Blk.reg_setReg_ne (b : Blk) {o p : Nat} (v : Word) (h : p ≠ o) : (b.setReg o v).reg p = b.reg p := by
  simp [Blk.reg_setReg, h]
theorem Blk.reg_setFld_ne (b : Blk) {o p : Nat} (hi lo v : Nat) (h : p ≠ o) : (b.setFld o hi lo v).reg p = b.reg p :=
  Blk.reg_setReg_ne b _ h
theorem Blk.reg_count_ne (b : Blk) {o p : Nat} (hi lo n : Nat) (h : p ≠ o) : (b.count o hi lo n).reg p = b.reg p :=
  Blk.reg_setReg_ne b _ h

theorem Blk.slot_setSlot (b : Blk) (k j : Nat) (r : Slot) : (b.setSlot k r).slot j = if j = k then r else b.slot j := by
  simp [Blk.slot, Blk.setSlot, sget_sset]
@[simp] theorem Blk.slot_setSlot_same (b : Blk) (k : Nat) (r : Slot) : (b.setSlot k r).slot k = r := by simp [Blk.slot_setSlot]
@[simp] theorem Blk.slot_mapSlot_same (b : Blk) (k : Nat) (f : Slot → Slot) : (b.mapSlot k f).slot k = f (b.slot k) := by
  simp [Blk.mapSlot]
theorem Blk.core_setCore (b : Blk) (k j : Nat) (c : CoreSt) : (b.setCore k c).core j = if j = k then c else b.core j := by
  simp [Blk.core, Blk.setCore, sget_sset]
theorem Blk.fmeta_setFmeta (b : Blk) (f g : Nat) (m : FrameMeta) : (b.setFmeta f m).fmeta g = if g = f then m else b.fmeta g := by
  simp [Blk.fmeta, Blk.setFmeta, sget_sset]

@[simp] theorem State.after_pending (s : State) (b : Blk) : (s.after b).pending = s.pending := rfl
@[simp] theorem State.after_blk (s : State) (b : Blk) : (s.after b).blk = settle b := rfl

/-- Posting changes nothing where no event has been raised. -/
theorem settle_of_posted {b : Blk} (h : b.dbg.evq = []) : settle b = b := by
  unfold settle
  rw [show 2 * (b.dbg.evq.length + b.mem.fmeta.length + 1) = (2 * (b.dbg.evq.length + b.mem.fmeta.length) + 1) + 1 by omega]
  simp [flushGo, h]

/-! ### One field after one update -/

@[simp] theorem Blk.setReg_free (b : Blk) (o : Nat) (v : Word) : (b.setReg o v).free = b.free := rfl
@[simp] theorem Blk.setReg_mem (b : Blk) (o : Nat) (v : Word) : (b.setReg o v).mem = b.mem := rfl
@[simp] theorem Blk.setReg_slots (b : Blk) (o : Nat) (v : Word) : (b.setReg o v).slots = b.slots := rfl
@[simp] theorem Blk.setReg_cores (b : Blk) (o : Nat) (v : Word) : (b.setReg o v).cores = b.cores := rfl
@[simp] theorem Blk.setReg_outst (b : Blk) (o : Nat) (v : Word) : (b.setReg o v).outst = b.outst := rfl
@[simp] theorem Blk.setReg_nextId (b : Blk) (o : Nat) (v : Word) : (b.setReg o v).nextId = b.nextId := rfl
@[simp] theorem Blk.setReg_ctxCmds (b : Blk) (o : Nat) (v : Word) : (b.setReg o v).ctxCmds = b.ctxCmds := rfl
@[simp] theorem Blk.setReg_sigs (b : Blk) (o : Nat) (v : Word) : (b.setReg o v).sigs = b.sigs := rfl
@[simp] theorem Blk.setReg_flights (b : Blk) (o : Nat) (v : Word) : (b.setReg o v).flights = b.flights := rfl
@[simp] theorem Blk.setReg_engines (b : Blk) (o : Nat) (v : Word) : (b.setReg o v).engines = b.engines := rfl
@[simp] theorem Blk.setReg_resid (b : Blk) (o : Nat) (v : Word) : (b.setReg o v).resid = b.resid := rfl
@[simp] theorem Blk.setReg_sqs (b : Blk) (o : Nat) (v : Word) : (b.setReg o v).sqs = b.sqs := rfl
@[simp] theorem Blk.setReg_pins (b : Blk) (o : Nat) (v : Word) : (b.setReg o v).pins = b.pins := rfl
@[simp] theorem Blk.setReg_runs (b : Blk) (o : Nat) (v : Word) : (b.setReg o v).runs = b.runs := rfl
@[simp] theorem Blk.setReg_host (b : Blk) (o : Nat) (v : Word) : (b.setReg o v).host = b.host := rfl
@[simp] theorem Blk.setReg_link (b : Blk) (o : Nat) (v : Word) : (b.setReg o v).link = b.link := rfl
@[simp] theorem Blk.setReg_xpt (b : Blk) (o : Nat) (v : Word) : (b.setReg o v).xpt = b.xpt := rfl
@[simp] theorem Blk.setReg_col (b : Blk) (o : Nat) (v : Word) : (b.setReg o v).col = b.col := rfl
@[simp] theorem Blk.setReg_sec (b : Blk) (o : Nat) (v : Word) : (b.setReg o v).sec = b.sec := rfl
@[simp] theorem Blk.setReg_pwr (b : Blk) (o : Nat) (v : Word) : (b.setReg o v).pwr = b.pwr := rfl
@[simp] theorem Blk.setReg_aon (b : Blk) (o : Nat) (v : Word) : (b.setReg o v).aon = b.aon := rfl
@[simp] theorem Blk.setReg_start (b : Blk) (o : Nat) (v : Word) : (b.setReg o v).start = b.start := rfl
@[simp] theorem Blk.setReg_dbg (b : Blk) (o : Nat) (v : Word) : (b.setReg o v).dbg = b.dbg := rfl
@[simp] theorem Blk.setFld_free (b : Blk) (o hi lo v : Nat) : (b.setFld o hi lo v).free = b.free := rfl
@[simp] theorem Blk.setFld_mem (b : Blk) (o hi lo v : Nat) : (b.setFld o hi lo v).mem = b.mem := rfl
@[simp] theorem Blk.setFld_slots (b : Blk) (o hi lo v : Nat) : (b.setFld o hi lo v).slots = b.slots := rfl
@[simp] theorem Blk.setFld_cores (b : Blk) (o hi lo v : Nat) : (b.setFld o hi lo v).cores = b.cores := rfl
@[simp] theorem Blk.setFld_outst (b : Blk) (o hi lo v : Nat) : (b.setFld o hi lo v).outst = b.outst := rfl
@[simp] theorem Blk.setFld_nextId (b : Blk) (o hi lo v : Nat) : (b.setFld o hi lo v).nextId = b.nextId := rfl
@[simp] theorem Blk.setFld_ctxCmds (b : Blk) (o hi lo v : Nat) : (b.setFld o hi lo v).ctxCmds = b.ctxCmds := rfl
@[simp] theorem Blk.setFld_sigs (b : Blk) (o hi lo v : Nat) : (b.setFld o hi lo v).sigs = b.sigs := rfl
@[simp] theorem Blk.setFld_flights (b : Blk) (o hi lo v : Nat) : (b.setFld o hi lo v).flights = b.flights := rfl
@[simp] theorem Blk.setFld_engines (b : Blk) (o hi lo v : Nat) : (b.setFld o hi lo v).engines = b.engines := rfl
@[simp] theorem Blk.setFld_resid (b : Blk) (o hi lo v : Nat) : (b.setFld o hi lo v).resid = b.resid := rfl
@[simp] theorem Blk.setFld_sqs (b : Blk) (o hi lo v : Nat) : (b.setFld o hi lo v).sqs = b.sqs := rfl
@[simp] theorem Blk.setFld_pins (b : Blk) (o hi lo v : Nat) : (b.setFld o hi lo v).pins = b.pins := rfl
@[simp] theorem Blk.setFld_runs (b : Blk) (o hi lo v : Nat) : (b.setFld o hi lo v).runs = b.runs := rfl
@[simp] theorem Blk.setFld_host (b : Blk) (o hi lo v : Nat) : (b.setFld o hi lo v).host = b.host := rfl
@[simp] theorem Blk.setFld_link (b : Blk) (o hi lo v : Nat) : (b.setFld o hi lo v).link = b.link := rfl
@[simp] theorem Blk.setFld_xpt (b : Blk) (o hi lo v : Nat) : (b.setFld o hi lo v).xpt = b.xpt := rfl
@[simp] theorem Blk.setFld_col (b : Blk) (o hi lo v : Nat) : (b.setFld o hi lo v).col = b.col := rfl
@[simp] theorem Blk.setFld_sec (b : Blk) (o hi lo v : Nat) : (b.setFld o hi lo v).sec = b.sec := rfl
@[simp] theorem Blk.setFld_pwr (b : Blk) (o hi lo v : Nat) : (b.setFld o hi lo v).pwr = b.pwr := rfl
@[simp] theorem Blk.setFld_aon (b : Blk) (o hi lo v : Nat) : (b.setFld o hi lo v).aon = b.aon := rfl
@[simp] theorem Blk.setFld_start (b : Blk) (o hi lo v : Nat) : (b.setFld o hi lo v).start = b.start := rfl
@[simp] theorem Blk.setFld_dbg (b : Blk) (o hi lo v : Nat) : (b.setFld o hi lo v).dbg = b.dbg := rfl
@[simp] theorem Blk.count_free (b : Blk) (o hi lo n : Nat) : (b.count o hi lo n).free = b.free := rfl
@[simp] theorem Blk.count_mem (b : Blk) (o hi lo n : Nat) : (b.count o hi lo n).mem = b.mem := rfl
@[simp] theorem Blk.count_slots (b : Blk) (o hi lo n : Nat) : (b.count o hi lo n).slots = b.slots := rfl
@[simp] theorem Blk.count_cores (b : Blk) (o hi lo n : Nat) : (b.count o hi lo n).cores = b.cores := rfl
@[simp] theorem Blk.count_outst (b : Blk) (o hi lo n : Nat) : (b.count o hi lo n).outst = b.outst := rfl
@[simp] theorem Blk.count_nextId (b : Blk) (o hi lo n : Nat) : (b.count o hi lo n).nextId = b.nextId := rfl
@[simp] theorem Blk.count_ctxCmds (b : Blk) (o hi lo n : Nat) : (b.count o hi lo n).ctxCmds = b.ctxCmds := rfl
@[simp] theorem Blk.count_sigs (b : Blk) (o hi lo n : Nat) : (b.count o hi lo n).sigs = b.sigs := rfl
@[simp] theorem Blk.count_flights (b : Blk) (o hi lo n : Nat) : (b.count o hi lo n).flights = b.flights := rfl
@[simp] theorem Blk.count_engines (b : Blk) (o hi lo n : Nat) : (b.count o hi lo n).engines = b.engines := rfl
@[simp] theorem Blk.count_resid (b : Blk) (o hi lo n : Nat) : (b.count o hi lo n).resid = b.resid := rfl
@[simp] theorem Blk.count_sqs (b : Blk) (o hi lo n : Nat) : (b.count o hi lo n).sqs = b.sqs := rfl
@[simp] theorem Blk.count_pins (b : Blk) (o hi lo n : Nat) : (b.count o hi lo n).pins = b.pins := rfl
@[simp] theorem Blk.count_runs (b : Blk) (o hi lo n : Nat) : (b.count o hi lo n).runs = b.runs := rfl
@[simp] theorem Blk.count_host (b : Blk) (o hi lo n : Nat) : (b.count o hi lo n).host = b.host := rfl
@[simp] theorem Blk.count_link (b : Blk) (o hi lo n : Nat) : (b.count o hi lo n).link = b.link := rfl
@[simp] theorem Blk.count_xpt (b : Blk) (o hi lo n : Nat) : (b.count o hi lo n).xpt = b.xpt := rfl
@[simp] theorem Blk.count_col (b : Blk) (o hi lo n : Nat) : (b.count o hi lo n).col = b.col := rfl
@[simp] theorem Blk.count_sec (b : Blk) (o hi lo n : Nat) : (b.count o hi lo n).sec = b.sec := rfl
@[simp] theorem Blk.count_pwr (b : Blk) (o hi lo n : Nat) : (b.count o hi lo n).pwr = b.pwr := rfl
@[simp] theorem Blk.count_aon (b : Blk) (o hi lo n : Nat) : (b.count o hi lo n).aon = b.aon := rfl
@[simp] theorem Blk.count_start (b : Blk) (o hi lo n : Nat) : (b.count o hi lo n).start = b.start := rfl
@[simp] theorem Blk.count_dbg (b : Blk) (o hi lo n : Nat) : (b.count o hi lo n).dbg = b.dbg := rfl
@[simp] theorem Blk.setSlot_free (b : Blk) (k : Nat) (r : Slot) : (b.setSlot k r).free = b.free := rfl
@[simp] theorem Blk.setSlot_mem (b : Blk) (k : Nat) (r : Slot) : (b.setSlot k r).mem = b.mem := rfl
@[simp] theorem Blk.setSlot_regs (b : Blk) (k : Nat) (r : Slot) : (b.setSlot k r).regs = b.regs := rfl
@[simp] theorem Blk.setSlot_cores (b : Blk) (k : Nat) (r : Slot) : (b.setSlot k r).cores = b.cores := rfl
@[simp] theorem Blk.setSlot_outst (b : Blk) (k : Nat) (r : Slot) : (b.setSlot k r).outst = b.outst := rfl
@[simp] theorem Blk.setSlot_nextId (b : Blk) (k : Nat) (r : Slot) : (b.setSlot k r).nextId = b.nextId := rfl
@[simp] theorem Blk.setSlot_ctxCmds (b : Blk) (k : Nat) (r : Slot) : (b.setSlot k r).ctxCmds = b.ctxCmds := rfl
@[simp] theorem Blk.setSlot_sigs (b : Blk) (k : Nat) (r : Slot) : (b.setSlot k r).sigs = b.sigs := rfl
@[simp] theorem Blk.setSlot_flights (b : Blk) (k : Nat) (r : Slot) : (b.setSlot k r).flights = b.flights := rfl
@[simp] theorem Blk.setSlot_engines (b : Blk) (k : Nat) (r : Slot) : (b.setSlot k r).engines = b.engines := rfl
@[simp] theorem Blk.setSlot_resid (b : Blk) (k : Nat) (r : Slot) : (b.setSlot k r).resid = b.resid := rfl
@[simp] theorem Blk.setSlot_sqs (b : Blk) (k : Nat) (r : Slot) : (b.setSlot k r).sqs = b.sqs := rfl
@[simp] theorem Blk.setSlot_pins (b : Blk) (k : Nat) (r : Slot) : (b.setSlot k r).pins = b.pins := rfl
@[simp] theorem Blk.setSlot_runs (b : Blk) (k : Nat) (r : Slot) : (b.setSlot k r).runs = b.runs := rfl
@[simp] theorem Blk.setSlot_host (b : Blk) (k : Nat) (r : Slot) : (b.setSlot k r).host = b.host := rfl
@[simp] theorem Blk.setSlot_link (b : Blk) (k : Nat) (r : Slot) : (b.setSlot k r).link = b.link := rfl
@[simp] theorem Blk.setSlot_xpt (b : Blk) (k : Nat) (r : Slot) : (b.setSlot k r).xpt = b.xpt := rfl
@[simp] theorem Blk.setSlot_col (b : Blk) (k : Nat) (r : Slot) : (b.setSlot k r).col = b.col := rfl
@[simp] theorem Blk.setSlot_sec (b : Blk) (k : Nat) (r : Slot) : (b.setSlot k r).sec = b.sec := rfl
@[simp] theorem Blk.setSlot_pwr (b : Blk) (k : Nat) (r : Slot) : (b.setSlot k r).pwr = b.pwr := rfl
@[simp] theorem Blk.setSlot_aon (b : Blk) (k : Nat) (r : Slot) : (b.setSlot k r).aon = b.aon := rfl
@[simp] theorem Blk.setSlot_start (b : Blk) (k : Nat) (r : Slot) : (b.setSlot k r).start = b.start := rfl
@[simp] theorem Blk.setSlot_dbg (b : Blk) (k : Nat) (r : Slot) : (b.setSlot k r).dbg = b.dbg := rfl
@[simp] theorem Blk.mapSlot_free (b : Blk) (k : Nat) (f : Slot → Slot) : (b.mapSlot k f).free = b.free := rfl
@[simp] theorem Blk.mapSlot_mem (b : Blk) (k : Nat) (f : Slot → Slot) : (b.mapSlot k f).mem = b.mem := rfl
@[simp] theorem Blk.mapSlot_regs (b : Blk) (k : Nat) (f : Slot → Slot) : (b.mapSlot k f).regs = b.regs := rfl
@[simp] theorem Blk.mapSlot_cores (b : Blk) (k : Nat) (f : Slot → Slot) : (b.mapSlot k f).cores = b.cores := rfl
@[simp] theorem Blk.mapSlot_outst (b : Blk) (k : Nat) (f : Slot → Slot) : (b.mapSlot k f).outst = b.outst := rfl
@[simp] theorem Blk.mapSlot_nextId (b : Blk) (k : Nat) (f : Slot → Slot) : (b.mapSlot k f).nextId = b.nextId := rfl
@[simp] theorem Blk.mapSlot_ctxCmds (b : Blk) (k : Nat) (f : Slot → Slot) : (b.mapSlot k f).ctxCmds = b.ctxCmds := rfl
@[simp] theorem Blk.mapSlot_sigs (b : Blk) (k : Nat) (f : Slot → Slot) : (b.mapSlot k f).sigs = b.sigs := rfl
@[simp] theorem Blk.mapSlot_flights (b : Blk) (k : Nat) (f : Slot → Slot) : (b.mapSlot k f).flights = b.flights := rfl
@[simp] theorem Blk.mapSlot_engines (b : Blk) (k : Nat) (f : Slot → Slot) : (b.mapSlot k f).engines = b.engines := rfl
@[simp] theorem Blk.mapSlot_resid (b : Blk) (k : Nat) (f : Slot → Slot) : (b.mapSlot k f).resid = b.resid := rfl
@[simp] theorem Blk.mapSlot_sqs (b : Blk) (k : Nat) (f : Slot → Slot) : (b.mapSlot k f).sqs = b.sqs := rfl
@[simp] theorem Blk.mapSlot_pins (b : Blk) (k : Nat) (f : Slot → Slot) : (b.mapSlot k f).pins = b.pins := rfl
@[simp] theorem Blk.mapSlot_runs (b : Blk) (k : Nat) (f : Slot → Slot) : (b.mapSlot k f).runs = b.runs := rfl
@[simp] theorem Blk.mapSlot_host (b : Blk) (k : Nat) (f : Slot → Slot) : (b.mapSlot k f).host = b.host := rfl
@[simp] theorem Blk.mapSlot_link (b : Blk) (k : Nat) (f : Slot → Slot) : (b.mapSlot k f).link = b.link := rfl
@[simp] theorem Blk.mapSlot_xpt (b : Blk) (k : Nat) (f : Slot → Slot) : (b.mapSlot k f).xpt = b.xpt := rfl
@[simp] theorem Blk.mapSlot_col (b : Blk) (k : Nat) (f : Slot → Slot) : (b.mapSlot k f).col = b.col := rfl
@[simp] theorem Blk.mapSlot_sec (b : Blk) (k : Nat) (f : Slot → Slot) : (b.mapSlot k f).sec = b.sec := rfl
@[simp] theorem Blk.mapSlot_pwr (b : Blk) (k : Nat) (f : Slot → Slot) : (b.mapSlot k f).pwr = b.pwr := rfl
@[simp] theorem Blk.mapSlot_aon (b : Blk) (k : Nat) (f : Slot → Slot) : (b.mapSlot k f).aon = b.aon := rfl
@[simp] theorem Blk.mapSlot_start (b : Blk) (k : Nat) (f : Slot → Slot) : (b.mapSlot k f).start = b.start := rfl
@[simp] theorem Blk.mapSlot_dbg (b : Blk) (k : Nat) (f : Slot → Slot) : (b.mapSlot k f).dbg = b.dbg := rfl
@[simp] theorem Blk.setCore_free (b : Blk) (k : Nat) (c : CoreSt) : (b.setCore k c).free = b.free := rfl
@[simp] theorem Blk.setCore_mem (b : Blk) (k : Nat) (c : CoreSt) : (b.setCore k c).mem = b.mem := rfl
@[simp] theorem Blk.setCore_regs (b : Blk) (k : Nat) (c : CoreSt) : (b.setCore k c).regs = b.regs := rfl
@[simp] theorem Blk.setCore_slots (b : Blk) (k : Nat) (c : CoreSt) : (b.setCore k c).slots = b.slots := rfl
@[simp] theorem Blk.setCore_outst (b : Blk) (k : Nat) (c : CoreSt) : (b.setCore k c).outst = b.outst := rfl
@[simp] theorem Blk.setCore_nextId (b : Blk) (k : Nat) (c : CoreSt) : (b.setCore k c).nextId = b.nextId := rfl
@[simp] theorem Blk.setCore_ctxCmds (b : Blk) (k : Nat) (c : CoreSt) : (b.setCore k c).ctxCmds = b.ctxCmds := rfl
@[simp] theorem Blk.setCore_sigs (b : Blk) (k : Nat) (c : CoreSt) : (b.setCore k c).sigs = b.sigs := rfl
@[simp] theorem Blk.setCore_flights (b : Blk) (k : Nat) (c : CoreSt) : (b.setCore k c).flights = b.flights := rfl
@[simp] theorem Blk.setCore_engines (b : Blk) (k : Nat) (c : CoreSt) : (b.setCore k c).engines = b.engines := rfl
@[simp] theorem Blk.setCore_resid (b : Blk) (k : Nat) (c : CoreSt) : (b.setCore k c).resid = b.resid := rfl
@[simp] theorem Blk.setCore_sqs (b : Blk) (k : Nat) (c : CoreSt) : (b.setCore k c).sqs = b.sqs := rfl
@[simp] theorem Blk.setCore_pins (b : Blk) (k : Nat) (c : CoreSt) : (b.setCore k c).pins = b.pins := rfl
@[simp] theorem Blk.setCore_runs (b : Blk) (k : Nat) (c : CoreSt) : (b.setCore k c).runs = b.runs := rfl
@[simp] theorem Blk.setCore_host (b : Blk) (k : Nat) (c : CoreSt) : (b.setCore k c).host = b.host := rfl
@[simp] theorem Blk.setCore_link (b : Blk) (k : Nat) (c : CoreSt) : (b.setCore k c).link = b.link := rfl
@[simp] theorem Blk.setCore_xpt (b : Blk) (k : Nat) (c : CoreSt) : (b.setCore k c).xpt = b.xpt := rfl
@[simp] theorem Blk.setCore_col (b : Blk) (k : Nat) (c : CoreSt) : (b.setCore k c).col = b.col := rfl
@[simp] theorem Blk.setCore_sec (b : Blk) (k : Nat) (c : CoreSt) : (b.setCore k c).sec = b.sec := rfl
@[simp] theorem Blk.setCore_pwr (b : Blk) (k : Nat) (c : CoreSt) : (b.setCore k c).pwr = b.pwr := rfl
@[simp] theorem Blk.setCore_aon (b : Blk) (k : Nat) (c : CoreSt) : (b.setCore k c).aon = b.aon := rfl
@[simp] theorem Blk.setCore_start (b : Blk) (k : Nat) (c : CoreSt) : (b.setCore k c).start = b.start := rfl
@[simp] theorem Blk.setCore_dbg (b : Blk) (k : Nat) (c : CoreSt) : (b.setCore k c).dbg = b.dbg := rfl
@[simp] theorem Blk.putBytes_free (b : Blk) (a : Nat) (l : List Byte) : (b.putBytes a l).free = b.free := rfl
@[simp] theorem Blk.putBytes_regs (b : Blk) (a : Nat) (l : List Byte) : (b.putBytes a l).regs = b.regs := rfl
@[simp] theorem Blk.putBytes_slots (b : Blk) (a : Nat) (l : List Byte) : (b.putBytes a l).slots = b.slots := rfl
@[simp] theorem Blk.putBytes_cores (b : Blk) (a : Nat) (l : List Byte) : (b.putBytes a l).cores = b.cores := rfl
@[simp] theorem Blk.putBytes_outst (b : Blk) (a : Nat) (l : List Byte) : (b.putBytes a l).outst = b.outst := rfl
@[simp] theorem Blk.putBytes_nextId (b : Blk) (a : Nat) (l : List Byte) : (b.putBytes a l).nextId = b.nextId := rfl
@[simp] theorem Blk.putBytes_ctxCmds (b : Blk) (a : Nat) (l : List Byte) : (b.putBytes a l).ctxCmds = b.ctxCmds := rfl
@[simp] theorem Blk.putBytes_sigs (b : Blk) (a : Nat) (l : List Byte) : (b.putBytes a l).sigs = b.sigs := rfl
@[simp] theorem Blk.putBytes_flights (b : Blk) (a : Nat) (l : List Byte) : (b.putBytes a l).flights = b.flights := rfl
@[simp] theorem Blk.putBytes_engines (b : Blk) (a : Nat) (l : List Byte) : (b.putBytes a l).engines = b.engines := rfl
@[simp] theorem Blk.putBytes_resid (b : Blk) (a : Nat) (l : List Byte) : (b.putBytes a l).resid = b.resid := rfl
@[simp] theorem Blk.putBytes_sqs (b : Blk) (a : Nat) (l : List Byte) : (b.putBytes a l).sqs = b.sqs := rfl
@[simp] theorem Blk.putBytes_pins (b : Blk) (a : Nat) (l : List Byte) : (b.putBytes a l).pins = b.pins := rfl
@[simp] theorem Blk.putBytes_runs (b : Blk) (a : Nat) (l : List Byte) : (b.putBytes a l).runs = b.runs := rfl
@[simp] theorem Blk.putBytes_host (b : Blk) (a : Nat) (l : List Byte) : (b.putBytes a l).host = b.host := rfl
@[simp] theorem Blk.putBytes_link (b : Blk) (a : Nat) (l : List Byte) : (b.putBytes a l).link = b.link := rfl
@[simp] theorem Blk.putBytes_xpt (b : Blk) (a : Nat) (l : List Byte) : (b.putBytes a l).xpt = b.xpt := rfl
@[simp] theorem Blk.putBytes_col (b : Blk) (a : Nat) (l : List Byte) : (b.putBytes a l).col = b.col := rfl
@[simp] theorem Blk.putBytes_sec (b : Blk) (a : Nat) (l : List Byte) : (b.putBytes a l).sec = b.sec := rfl
@[simp] theorem Blk.putBytes_pwr (b : Blk) (a : Nat) (l : List Byte) : (b.putBytes a l).pwr = b.pwr := rfl
@[simp] theorem Blk.putBytes_aon (b : Blk) (a : Nat) (l : List Byte) : (b.putBytes a l).aon = b.aon := rfl
@[simp] theorem Blk.putBytes_start (b : Blk) (a : Nat) (l : List Byte) : (b.putBytes a l).start = b.start := rfl
@[simp] theorem Blk.putBytes_dbg (b : Blk) (a : Nat) (l : List Byte) : (b.putBytes a l).dbg = b.dbg := rfl
@[simp] theorem Blk.setFmeta_free (b : Blk) (f : Nat) (m : FrameMeta) : (b.setFmeta f m).free = b.free := rfl
@[simp] theorem Blk.setFmeta_regs (b : Blk) (f : Nat) (m : FrameMeta) : (b.setFmeta f m).regs = b.regs := rfl
@[simp] theorem Blk.setFmeta_slots (b : Blk) (f : Nat) (m : FrameMeta) : (b.setFmeta f m).slots = b.slots := rfl
@[simp] theorem Blk.setFmeta_cores (b : Blk) (f : Nat) (m : FrameMeta) : (b.setFmeta f m).cores = b.cores := rfl
@[simp] theorem Blk.setFmeta_outst (b : Blk) (f : Nat) (m : FrameMeta) : (b.setFmeta f m).outst = b.outst := rfl
@[simp] theorem Blk.setFmeta_nextId (b : Blk) (f : Nat) (m : FrameMeta) : (b.setFmeta f m).nextId = b.nextId := rfl
@[simp] theorem Blk.setFmeta_ctxCmds (b : Blk) (f : Nat) (m : FrameMeta) : (b.setFmeta f m).ctxCmds = b.ctxCmds := rfl
@[simp] theorem Blk.setFmeta_sigs (b : Blk) (f : Nat) (m : FrameMeta) : (b.setFmeta f m).sigs = b.sigs := rfl
@[simp] theorem Blk.setFmeta_flights (b : Blk) (f : Nat) (m : FrameMeta) : (b.setFmeta f m).flights = b.flights := rfl
@[simp] theorem Blk.setFmeta_engines (b : Blk) (f : Nat) (m : FrameMeta) : (b.setFmeta f m).engines = b.engines := rfl
@[simp] theorem Blk.setFmeta_resid (b : Blk) (f : Nat) (m : FrameMeta) : (b.setFmeta f m).resid = b.resid := rfl
@[simp] theorem Blk.setFmeta_sqs (b : Blk) (f : Nat) (m : FrameMeta) : (b.setFmeta f m).sqs = b.sqs := rfl
@[simp] theorem Blk.setFmeta_pins (b : Blk) (f : Nat) (m : FrameMeta) : (b.setFmeta f m).pins = b.pins := rfl
@[simp] theorem Blk.setFmeta_runs (b : Blk) (f : Nat) (m : FrameMeta) : (b.setFmeta f m).runs = b.runs := rfl
@[simp] theorem Blk.setFmeta_host (b : Blk) (f : Nat) (m : FrameMeta) : (b.setFmeta f m).host = b.host := rfl
@[simp] theorem Blk.setFmeta_link (b : Blk) (f : Nat) (m : FrameMeta) : (b.setFmeta f m).link = b.link := rfl
@[simp] theorem Blk.setFmeta_xpt (b : Blk) (f : Nat) (m : FrameMeta) : (b.setFmeta f m).xpt = b.xpt := rfl
@[simp] theorem Blk.setFmeta_col (b : Blk) (f : Nat) (m : FrameMeta) : (b.setFmeta f m).col = b.col := rfl
@[simp] theorem Blk.setFmeta_sec (b : Blk) (f : Nat) (m : FrameMeta) : (b.setFmeta f m).sec = b.sec := rfl
@[simp] theorem Blk.setFmeta_pwr (b : Blk) (f : Nat) (m : FrameMeta) : (b.setFmeta f m).pwr = b.pwr := rfl
@[simp] theorem Blk.setFmeta_aon (b : Blk) (f : Nat) (m : FrameMeta) : (b.setFmeta f m).aon = b.aon := rfl
@[simp] theorem Blk.setFmeta_start (b : Blk) (f : Nat) (m : FrameMeta) : (b.setFmeta f m).start = b.start := rfl
@[simp] theorem Blk.setFmeta_dbg (b : Blk) (f : Nat) (m : FrameMeta) : (b.setFmeta f m).dbg = b.dbg := rfl
@[simp] theorem Blk.withEv_free (b : Blk) (e : Ev) : (b.withEv e).free = b.free := rfl
@[simp] theorem Blk.withEv_mem (b : Blk) (e : Ev) : (b.withEv e).mem = b.mem := rfl
@[simp] theorem Blk.withEv_regs (b : Blk) (e : Ev) : (b.withEv e).regs = b.regs := rfl
@[simp] theorem Blk.withEv_slots (b : Blk) (e : Ev) : (b.withEv e).slots = b.slots := rfl
@[simp] theorem Blk.withEv_cores (b : Blk) (e : Ev) : (b.withEv e).cores = b.cores := rfl
@[simp] theorem Blk.withEv_outst (b : Blk) (e : Ev) : (b.withEv e).outst = b.outst := rfl
@[simp] theorem Blk.withEv_nextId (b : Blk) (e : Ev) : (b.withEv e).nextId = b.nextId := rfl
@[simp] theorem Blk.withEv_ctxCmds (b : Blk) (e : Ev) : (b.withEv e).ctxCmds = b.ctxCmds := rfl
@[simp] theorem Blk.withEv_sigs (b : Blk) (e : Ev) : (b.withEv e).sigs = b.sigs := rfl
@[simp] theorem Blk.withEv_flights (b : Blk) (e : Ev) : (b.withEv e).flights = b.flights := rfl
@[simp] theorem Blk.withEv_engines (b : Blk) (e : Ev) : (b.withEv e).engines = b.engines := rfl
@[simp] theorem Blk.withEv_resid (b : Blk) (e : Ev) : (b.withEv e).resid = b.resid := rfl
@[simp] theorem Blk.withEv_sqs (b : Blk) (e : Ev) : (b.withEv e).sqs = b.sqs := rfl
@[simp] theorem Blk.withEv_pins (b : Blk) (e : Ev) : (b.withEv e).pins = b.pins := rfl
@[simp] theorem Blk.withEv_runs (b : Blk) (e : Ev) : (b.withEv e).runs = b.runs := rfl
@[simp] theorem Blk.withEv_host (b : Blk) (e : Ev) : (b.withEv e).host = b.host := rfl
@[simp] theorem Blk.withEv_link (b : Blk) (e : Ev) : (b.withEv e).link = b.link := rfl
@[simp] theorem Blk.withEv_xpt (b : Blk) (e : Ev) : (b.withEv e).xpt = b.xpt := rfl
@[simp] theorem Blk.withEv_col (b : Blk) (e : Ev) : (b.withEv e).col = b.col := rfl
@[simp] theorem Blk.withEv_sec (b : Blk) (e : Ev) : (b.withEv e).sec = b.sec := rfl
@[simp] theorem Blk.withEv_pwr (b : Blk) (e : Ev) : (b.withEv e).pwr = b.pwr := rfl
@[simp] theorem Blk.withEv_aon (b : Blk) (e : Ev) : (b.withEv e).aon = b.aon := rfl
@[simp] theorem Blk.withEv_start (b : Blk) (e : Ev) : (b.withEv e).start = b.start := rfl

end Sys2Proof.Machine
end

