-- ==== Sys2Proof/Laws/Issue.lean ====
section
/-! SUPPORT. What issuing a Plynax instruction does, once for all rows: the slot that issues, the package after the instruction
has left its slot, and the three ends of its body. -/
namespace Sys2Proof.Machine

@[simp] theorem Blk.traceAdd_free (b : Blk) (d : Nat) (r : TraceRec) : (b.traceAdd d r).free = b.free := by unfold Blk.traceAdd; dsimp only; split <;> rfl
@[simp] theorem Blk.traceAdd_mem (b : Blk) (d : Nat) (r : TraceRec) : (b.traceAdd d r).mem = b.mem := by unfold Blk.traceAdd; dsimp only; split <;> rfl
@[simp] theorem Blk.traceAdd_slots (b : Blk) (d : Nat) (r : TraceRec) : (b.traceAdd d r).slots = b.slots := by unfold Blk.traceAdd; dsimp only; split <;> rfl
@[simp] theorem Blk.traceAdd_cores (b : Blk) (d : Nat) (r : TraceRec) : (b.traceAdd d r).cores = b.cores := by unfold Blk.traceAdd; dsimp only; split <;> rfl
@[simp] theorem Blk.traceAdd_outst (b : Blk) (d : Nat) (r : TraceRec) : (b.traceAdd d r).outst = b.outst := by unfold Blk.traceAdd; dsimp only; split <;> rfl
@[simp] theorem Blk.traceAdd_nextId (b : Blk) (d : Nat) (r : TraceRec) : (b.traceAdd d r).nextId = b.nextId := by unfold Blk.traceAdd; dsimp only; split <;> rfl
@[simp] theorem Blk.traceAdd_ctxCmds (b : Blk) (d : Nat) (r : TraceRec) : (b.traceAdd d r).ctxCmds = b.ctxCmds := by unfold Blk.traceAdd; dsimp only; split <;> rfl
@[simp] theorem Blk.traceAdd_sigs (b : Blk) (d : Nat) (r : TraceRec) : (b.traceAdd d r).sigs = b.sigs := by unfold Blk.traceAdd; dsimp only; split <;> rfl
@[simp] theorem Blk.traceAdd_flights (b : Blk) (d : Nat) (r : TraceRec) : (b.traceAdd d r).flights = b.flights := by unfold Blk.traceAdd; dsimp only; split <;> rfl
@[simp] theorem Blk.traceAdd_engines (b : Blk) (d : Nat) (r : TraceRec) : (b.traceAdd d r).engines = b.engines := by unfold Blk.traceAdd; dsimp only; split <;> rfl
@[simp] theorem Blk.traceAdd_resid (b : Blk) (d : Nat) (r : TraceRec) : (b.traceAdd d r).resid = b.resid := by unfold Blk.traceAdd; dsimp only; split <;> rfl
@[simp] theorem Blk.traceAdd_sqs (b : Blk) (d : Nat) (r : TraceRec) : (b.traceAdd d r).sqs = b.sqs := by unfold Blk.traceAdd; dsimp only; split <;> rfl
@[simp] theorem Blk.traceAdd_pins (b : Blk) (d : Nat) (r : TraceRec) : (b.traceAdd d r).pins = b.pins := by unfold Blk.traceAdd; dsimp only; split <;> rfl
@[simp] theorem Blk.traceAdd_runs (b : Blk) (d : Nat) (r : TraceRec) : (b.traceAdd d r).runs = b.runs := by unfold Blk.traceAdd; dsimp only; split <;> rfl
@[simp] theorem Blk.traceAdd_host (b : Blk) (d : Nat) (r : TraceRec) : (b.traceAdd d r).host = b.host := by unfold Blk.traceAdd; dsimp only; split <;> rfl
@[simp] theorem Blk.traceAdd_link (b : Blk) (d : Nat) (r : TraceRec) : (b.traceAdd d r).link = b.link := by unfold Blk.traceAdd; dsimp only; split <;> rfl
@[simp] theorem Blk.traceAdd_xpt (b : Blk) (d : Nat) (r : TraceRec) : (b.traceAdd d r).xpt = b.xpt := by unfold Blk.traceAdd; dsimp only; split <;> rfl
@[simp] theorem Blk.traceAdd_col (b : Blk) (d : Nat) (r : TraceRec) : (b.traceAdd d r).col = b.col := by unfold Blk.traceAdd; dsimp only; split <;> rfl
@[simp] theorem Blk.traceAdd_sec (b : Blk) (d : Nat) (r : TraceRec) : (b.traceAdd d r).sec = b.sec := by unfold Blk.traceAdd; dsimp only; split <;> rfl
@[simp] theorem Blk.traceAdd_pwr (b : Blk) (d : Nat) (r : TraceRec) : (b.traceAdd d r).pwr = b.pwr := by unfold Blk.traceAdd; dsimp only; split <;> rfl
@[simp] theorem Blk.traceAdd_aon (b : Blk) (d : Nat) (r : TraceRec) : (b.traceAdd d r).aon = b.aon := by unfold Blk.traceAdd; dsimp only; split <;> rfl
@[simp] theorem Blk.traceAdd_start (b : Blk) (d : Nat) (r : TraceRec) : (b.traceAdd d r).start = b.start := by unfold Blk.traceAdd; dsimp only; split <;> rfl

@[simp] theorem Blk.trace_free (b : Blk) (k ty : Nat) (pc : BitVec 32) (n : Nat) : (b.trace k ty pc n).free = b.free := by unfold Blk.trace; dsimp only; split <;> simp
@[simp] theorem Blk.trace_mem (b : Blk) (k ty : Nat) (pc : BitVec 32) (n : Nat) : (b.trace k ty pc n).mem = b.mem := by unfold Blk.trace; dsimp only; split <;> simp
@[simp] theorem Blk.trace_slots (b : Blk) (k ty : Nat) (pc : BitVec 32) (n : Nat) : (b.trace k ty pc n).slots = b.slots := by unfold Blk.trace; dsimp only; split <;> simp
@[simp] theorem Blk.trace_cores (b : Blk) (k ty : Nat) (pc : BitVec 32) (n : Nat) : (b.trace k ty pc n).cores = b.cores := by unfold Blk.trace; dsimp only; split <;> simp
@[simp] theorem Blk.trace_outst (b : Blk) (k ty : Nat) (pc : BitVec 32) (n : Nat) : (b.trace k ty pc n).outst = b.outst := by unfold Blk.trace; dsimp only; split <;> simp
@[simp] theorem Blk.trace_nextId (b : Blk) (k ty : Nat) (pc : BitVec 32) (n : Nat) : (b.trace k ty pc n).nextId = b.nextId := by unfold Blk.trace; dsimp only; split <;> simp
@[simp] theorem Blk.trace_ctxCmds (b : Blk) (k ty : Nat) (pc : BitVec 32) (n : Nat) : (b.trace k ty pc n).ctxCmds = b.ctxCmds := by unfold Blk.trace; dsimp only; split <;> simp
@[simp] theorem Blk.trace_sigs (b : Blk) (k ty : Nat) (pc : BitVec 32) (n : Nat) : (b.trace k ty pc n).sigs = b.sigs := by unfold Blk.trace; dsimp only; split <;> simp
@[simp] theorem Blk.trace_flights (b : Blk) (k ty : Nat) (pc : BitVec 32) (n : Nat) : (b.trace k ty pc n).flights = b.flights := by unfold Blk.trace; dsimp only; split <;> simp
@[simp] theorem Blk.trace_engines (b : Blk) (k ty : Nat) (pc : BitVec 32) (n : Nat) : (b.trace k ty pc n).engines = b.engines := by unfold Blk.trace; dsimp only; split <;> simp
@[simp] theorem Blk.trace_resid (b : Blk) (k ty : Nat) (pc : BitVec 32) (n : Nat) : (b.trace k ty pc n).resid = b.resid := by unfold Blk.trace; dsimp only; split <;> simp
@[simp] theorem Blk.trace_sqs (b : Blk) (k ty : Nat) (pc : BitVec 32) (n : Nat) : (b.trace k ty pc n).sqs = b.sqs := by unfold Blk.trace; dsimp only; split <;> simp
@[simp] theorem Blk.trace_pins (b : Blk) (k ty : Nat) (pc : BitVec 32) (n : Nat) : (b.trace k ty pc n).pins = b.pins := by unfold Blk.trace; dsimp only; split <;> simp
@[simp] theorem Blk.trace_runs (b : Blk) (k ty : Nat) (pc : BitVec 32) (n : Nat) : (b.trace k ty pc n).runs = b.runs := by unfold Blk.trace; dsimp only; split <;> simp
@[simp] theorem Blk.trace_host (b : Blk) (k ty : Nat) (pc : BitVec 32) (n : Nat) : (b.trace k ty pc n).host = b.host := by unfold Blk.trace; dsimp only; split <;> simp
@[simp] theorem Blk.trace_link (b : Blk) (k ty : Nat) (pc : BitVec 32) (n : Nat) : (b.trace k ty pc n).link = b.link := by unfold Blk.trace; dsimp only; split <;> simp
@[simp] theorem Blk.trace_xpt (b : Blk) (k ty : Nat) (pc : BitVec 32) (n : Nat) : (b.trace k ty pc n).xpt = b.xpt := by unfold Blk.trace; dsimp only; split <;> simp
@[simp] theorem Blk.trace_col (b : Blk) (k ty : Nat) (pc : BitVec 32) (n : Nat) : (b.trace k ty pc n).col = b.col := by unfold Blk.trace; dsimp only; split <;> simp
@[simp] theorem Blk.trace_sec (b : Blk) (k ty : Nat) (pc : BitVec 32) (n : Nat) : (b.trace k ty pc n).sec = b.sec := by unfold Blk.trace; dsimp only; split <;> simp
@[simp] theorem Blk.trace_pwr (b : Blk) (k ty : Nat) (pc : BitVec 32) (n : Nat) : (b.trace k ty pc n).pwr = b.pwr := by unfold Blk.trace; dsimp only; split <;> simp
@[simp] theorem Blk.trace_aon (b : Blk) (k ty : Nat) (pc : BitVec 32) (n : Nat) : (b.trace k ty pc n).aon = b.aon := by unfold Blk.trace; dsimp only; split <;> simp
@[simp] theorem Blk.trace_start (b : Blk) (k ty : Nat) (pc : BitVec 32) (n : Nat) : (b.trace k ty pc n).start = b.start := by unfold Blk.trace; dsimp only; split <;> simp

@[simp] theorem Blk.issued_free (b : Blk) (c : Cx) : (b.issued c).free = b.free := by
  unfold Blk.issued; dsimp only; split <;> split <;> simp
@[simp] theorem Blk.issued_mem (b : Blk) (c : Cx) : (b.issued c).mem = b.mem := by
  unfold Blk.issued; dsimp only; split <;> split <;> simp
@[simp] theorem Blk.issued_slots (b : Blk) (c : Cx) : (b.issued c).slots = b.slots := by
  unfold Blk.issued; dsimp only; split <;> split <;> simp
@[simp] theorem Blk.issued_cores (b : Blk) (c : Cx) : (b.issued c).cores = b.cores := by
  unfold Blk.issued; dsimp only; split <;> split <;> simp
@[simp] theorem Blk.issued_outst (b : Blk) (c : Cx) : (b.issued c).outst = b.outst := by
  unfold Blk.issued; dsimp only; split <;> split <;> simp
@[simp] theorem Blk.issued_nextId (b : Blk) (c : Cx) : (b.issued c).nextId = b.nextId := by
  unfold Blk.issued; dsimp only; split <;> split <;> simp
@[simp] theorem Blk.issued_ctxCmds (b : Blk) (c : Cx) : (b.issued c).ctxCmds = b.ctxCmds := by
  unfold Blk.issued; dsimp only; split <;> split <;> simp
@[simp] theorem Blk.issued_sigs (b : Blk) (c : Cx) : (b.issued c).sigs = b.sigs := by
  unfold Blk.issued; dsimp only; split <;> split <;> simp
@[simp] theorem Blk.issued_flights (b : Blk) (c : Cx) : (b.issued c).flights = b.flights := by
  unfold Blk.issued; dsimp only; split <;> split <;> simp
@[simp] theorem Blk.issued_engines (b : Blk) (c : Cx) : (b.issued c).engines = b.engines := by
  unfold Blk.issued; dsimp only; split <;> split <;> simp
@[simp] theorem Blk.issued_resid (b : Blk) (c : Cx) : (b.issued c).resid = b.resid := by
  unfold Blk.issued; dsimp only; split <;> split <;> simp
@[simp] theorem Blk.issued_sqs (b : Blk) (c : Cx) : (b.issued c).sqs = b.sqs := by
  unfold Blk.issued; dsimp only; split <;> split <;> simp
@[simp] theorem Blk.issued_pins (b : Blk) (c : Cx) : (b.issued c).pins = b.pins := by
  unfold Blk.issued; dsimp only; split <;> split <;> simp
@[simp] theorem Blk.issued_runs (b : Blk) (c : Cx) : (b.issued c).runs = b.runs := by
  unfold Blk.issued; dsimp only; split <;> split <;> simp
@[simp] theorem Blk.issued_host (b : Blk) (c : Cx) : (b.issued c).host = b.host := by
  unfold Blk.issued; dsimp only; split <;> split <;> simp
@[simp] theorem Blk.issued_link (b : Blk) (c : Cx) : (b.issued c).link = b.link := by
  unfold Blk.issued; dsimp only; split <;> split <;> simp
@[simp] theorem Blk.issued_xpt (b : Blk) (c : Cx) : (b.issued c).xpt = b.xpt := by
  unfold Blk.issued; dsimp only; split <;> split <;> simp
@[simp] theorem Blk.issued_col (b : Blk) (c : Cx) : (b.issued c).col = b.col := by
  unfold Blk.issued; dsimp only; split <;> split <;> simp
@[simp] theorem Blk.issued_sec (b : Blk) (c : Cx) : (b.issued c).sec = b.sec := by
  unfold Blk.issued; dsimp only; split <;> split <;> simp
@[simp] theorem Blk.issued_pwr (b : Blk) (c : Cx) : (b.issued c).pwr = b.pwr := by
  unfold Blk.issued; dsimp only; split <;> split <;> simp
@[simp] theorem Blk.issued_aon (b : Blk) (c : Cx) : (b.issued c).aon = b.aon := by
  unfold Blk.issued; dsimp only; split <;> split <;> simp
@[simp] theorem Blk.issued_start (b : Blk) (c : Cx) : (b.issued c).start = b.start := by
  unfold Blk.issued; dsimp only; split <;> split <;> simp

@[simp] theorem Blk.begun_free (b : Blk) (k : Nat) (w : Word) : (b.begun k w).free = b.free := by simp [Blk.begun]
@[simp] theorem Blk.begun_mem (b : Blk) (k : Nat) (w : Word) : (b.begun k w).mem = b.mem := by simp [Blk.begun]
@[simp] theorem Blk.begun_cores (b : Blk) (k : Nat) (w : Word) : (b.begun k w).cores = b.cores := by simp [Blk.begun]
@[simp] theorem Blk.begun_outst (b : Blk) (k : Nat) (w : Word) : (b.begun k w).outst = b.outst := by simp [Blk.begun]
@[simp] theorem Blk.begun_nextId (b : Blk) (k : Nat) (w : Word) : (b.begun k w).nextId = b.nextId := by simp [Blk.begun]
@[simp] theorem Blk.begun_ctxCmds (b : Blk) (k : Nat) (w : Word) : (b.begun k w).ctxCmds = b.ctxCmds := by simp [Blk.begun]
@[simp] theorem Blk.begun_sigs (b : Blk) (k : Nat) (w : Word) : (b.begun k w).sigs = b.sigs := by simp [Blk.begun]
@[simp] theorem Blk.begun_flights (b : Blk) (k : Nat) (w : Word) : (b.begun k w).flights = b.flights := by simp [Blk.begun]
@[simp] theorem Blk.begun_engines (b : Blk) (k : Nat) (w : Word) : (b.begun k w).engines = b.engines := by simp [Blk.begun]
@[simp] theorem Blk.begun_resid (b : Blk) (k : Nat) (w : Word) : (b.begun k w).resid = b.resid := by simp [Blk.begun]
@[simp] theorem Blk.begun_sqs (b : Blk) (k : Nat) (w : Word) : (b.begun k w).sqs = b.sqs := by simp [Blk.begun]
@[simp] theorem Blk.begun_pins (b : Blk) (k : Nat) (w : Word) : (b.begun k w).pins = b.pins := by simp [Blk.begun]
@[simp] theorem Blk.begun_runs (b : Blk) (k : Nat) (w : Word) : (b.begun k w).runs = b.runs := by simp [Blk.begun]
@[simp] theorem Blk.begun_host (b : Blk) (k : Nat) (w : Word) : (b.begun k w).host = b.host := by simp [Blk.begun]
@[simp] theorem Blk.begun_link (b : Blk) (k : Nat) (w : Word) : (b.begun k w).link = b.link := by simp [Blk.begun]
@[simp] theorem Blk.begun_xpt (b : Blk) (k : Nat) (w : Word) : (b.begun k w).xpt = b.xpt := by simp [Blk.begun]
@[simp] theorem Blk.begun_col (b : Blk) (k : Nat) (w : Word) : (b.begun k w).col = b.col := by simp [Blk.begun]
@[simp] theorem Blk.begun_sec (b : Blk) (k : Nat) (w : Word) : (b.begun k w).sec = b.sec := by simp [Blk.begun]
@[simp] theorem Blk.begun_pwr (b : Blk) (k : Nat) (w : Word) : (b.begun k w).pwr = b.pwr := by simp [Blk.begun]
@[simp] theorem Blk.begun_aon (b : Blk) (k : Nat) (w : Word) : (b.begun k w).aon = b.aon := by simp [Blk.begun]
@[simp] theorem Blk.begun_start (b : Blk) (k : Nat) (w : Word) : (b.begun k w).start = b.start := by simp [Blk.begun]

/-! ### Registers of the trace -/

theorem Blk.traceAdd_reg (b : Blk) (d : Nat) (r : TraceRec) {off : Nat} (h : off ≠ Reg.dbgTrcSts) : (b.traceAdd d r).reg off = b.reg off := by
  unfold Blk.traceAdd
  dsimp only
  split
  · rfl
  · exact Blk.reg_count_ne _ _ _ _ h

theorem Blk.trace_reg (b : Blk) (k ty : Nat) (pc : BitVec 32) (n : Nat) {off : Nat} (h : off ≠ Reg.dbgTrcSts) :
    (b.trace k ty pc n).reg off = b.reg off := by
  unfold Blk.trace
  dsimp only
  split
  · exact Blk.traceAdd_reg _ _ _ h
  · rfl

/-- Issuing counts an instruction in the cycle counters of its core and may add a trace record; no other register changes. -/
theorem Blk.issued_reg (b : Blk) (c : Cx) {off : Nat} (h : off ≠ Reg.dbgTrcSts)
    (h2 : off ≠ Reg.cntCyc (coreKey c.die c.p) (24 * b2n c.bf + 23)) : (b.issued c).reg off = b.reg off := by
  unfold Blk.issued
  dsimp only
  split <;> split <;> simp [Blk.trace_reg, Blk.reg_count_ne, h, h2]

theorem Blk.begun_reg (b : Blk) (k : Nat) (w : Word) {off : Nat} (h : off ≠ Reg.dbgTrcSts)
    (h2 : off ≠ Reg.cntCyc (coreKey (keyDie k) (keyPhys k)) (24 * b2n (keyBf k) + 23)) : (b.begun k w).reg off = b.reg off := by
  unfold Blk.begun
  rw [Blk.issued_reg _ _ h]
  · rfl
  · exact h2

/-! ### The issuing slot -/

theorem Blk.begun_slots (b : Blk) (k : Nat) (w : Word) :
    (b.begun k w).slots = (b.setSlot k { b.slot k with latched := none, lastPc := (b.slot k).issuePc, lastW := w }).slots := by
  simp [Blk.begun]

@[simp] theorem Blk.begun_slot (b : Blk) (k : Nat) (w : Word) :
    (b.begun k w).slot k = { b.slot k with latched := none, lastPc := (b.slot k).issuePc, lastW := w } := by
  have := b.begun_slots k w
  simp only [Blk.slot] at *
  rw [this]
  exact Blk.slot_setSlot_same b k _

theorem Blk.begun_slot_ne (b : Blk) {k j : Nat} (w : Word) (h : j ≠ k) : (b.begun k w).slot j = b.slot j := by
  have h1 : (b.begun k w).slot j = (b.setSlot k { b.slot k with latched := none, lastPc := (b.slot k).issuePc, lastW := w }).slot j := by
    simp only [Blk.slot, Blk.begun_slots]
  rw [h1, Blk.slot_setSlot, if_neg h]

@[simp] theorem Blk.begun_sreg (b : Blk) (k n : Nat) (w : Word) : (b.begun k w).sreg k n = b.sreg k n := by
  simp [Blk.sreg]

/-- What an issuing slot is: the member's, able to issue, and the word is of the class and opcode asked for. -/
theorem Blk.issuer_spec {b : Blk} {m : Member} {w : Word} {cls op k : Nat} (h : b.issuer m w cls op = some k) :
    b.memberKey m = some k ∧ b.canIssue k = true ∧ bits w 63 60 = cls ∧ bits w 59 54 = op ∧ (b.slot k).holds w = true := by
  unfold Blk.issuer at h
  split at h
  · cases h
  · split at h
    · next h1 h2 =>
      simp only [Bool.and_eq_true, decide_eq_true_eq] at h2
      cases h
      exact ⟨h1, h2.1.1.1, h2.1.1.2, h2.1.2, h2.2⟩
    · cases h

/-! ### The ends of an instruction -/

theorem issue_none {m : Member} {w : Word} {cls op : Nat} {ok : Bool} {body : Cx → Act Unit} {b : Blk}
    (h : b.issuer m w cls op = none) : issue m w cls op ok body b = b := by simp [issue, h]

/-- R143: an encoding that is not defined faults. -/
theorem issue_illegal {m : Member} {w : Word} {cls op k : Nat} {body : Cx → Act Unit} {b : Blk}
    (h : b.issuer m w cls op = some k) :
    issue m w cls op false body b = (b.begun k w).raise k 0x0A (b.slot k).issuePc cls op := by
  obtain ⟨-, -, hc, ho, -⟩ := Blk.issuer_spec h
  simp [issue, h, Blk.run, Blk.cx, hc, ho]

/-- An instruction whose body ends normally leaves what the body leaves. -/
theorem issue_done {m : Member} {w : Word} {cls op k : Nat} {ok : Bool} {body : Cx → Act Unit} {b t : Blk}
    (h : b.issuer m w cls op = some k) (hok : ok = true) (hb : body (b.cx k w) (b.begun k w) = .ok () t) :
    issue m w cls op ok body b = t := by
  simp [issue, h, Blk.run, hok, hb]

/-- One whose body ends with a status faults. -/
theorem issue_fault {m : Member} {w : Word} {cls op k e : Nat} {body : Cx → Act Unit} {b t : Blk}
    (h : b.issuer m w cls op = some k) (hb : body (b.cx k w) (b.begun k w) = .error e t) (he : e ≠ notYet) :
    issue m w cls op true body b = t.raise k e (b.slot k).issuePc cls op := by
  obtain ⟨-, -, hc, ho, -⟩ := Blk.issuer_spec h
  have hpc : (b.cx k w).pc = (b.slot k).issuePc := rfl
  simp only [issue, h, Blk.run, hb, he, hc, ho, hpc, Bool.not_true, Bool.false_eq_true, if_false]

end Sys2Proof.Machine
end

