-- ==== Sys2Proof/Laws/Act.lean ====
section
/-! SUPPORT. Running an action of the package: one equation for each way to build one, so that a proof runs a meaning by rewriting. -/
namespace Sys2Proof.Machine

@[simp] theorem Act.pure_run {α : Type} (x : α) (b : Blk) : (pure x : Act α) b = .ok x b := rfl
@[simp] theorem Act.get_run (b : Blk) : (get : Act Blk) b = .ok b b := rfl
@[simp] theorem Act.set_run (t b : Blk) : (set t : Act PUnit) b = .ok ⟨⟩ t := rfl
@[simp] theorem Act.modify_run (f : Blk → Blk) (b : Blk) : (modify f : Act PUnit) b = .ok ⟨⟩ (f b) := rfl
@[simp] theorem Act.throw_run {α : Type} (e : Nat) (b : Blk) : (throw e : Act α) b = .error e b := rfl
@[simp] theorem Act.bind_run {α β : Type} (a : Act α) (f : α → Act β) (b : Blk) :
    (a >>= f) b = match a b with
      | .ok x t => f x t
      | .error e t => .error e t := by
  show EStateM.bind a f b = _
  unfold EStateM.bind; cases a b <;> rfl
@[simp] theorem Act.map_run {α β : Type} (g : α → β) (a : Act α) (b : Blk) :
    (g <$> a) b = match a b with
      | .ok x t => .ok (g x) t
      | .error e t => .error e t := by
  show EStateM.map g a b = _
  unfold EStateM.map; cases a b <;> rfl
@[simp] theorem need_true (st : Nat) (b : Blk) : need true st b = .ok () b := rfl
@[simp] theorem need_false (st : Nat) (b : Blk) : need false st b = .error st b := rfl
theorem need_run (c : Bool) (st : Nat) (b : Blk) : need c st b = if c then .ok () b else .error st b := by cases c <;> rfl

/-- The status of an action as a value: the action around it goes on. -/
theorem Act.status_run {α : Type} (a : Act α) (b : Blk) : a.status b = match a b with
    | .ok _ t => .ok 0 t
    | .error e t => .ok e t := rfl

/-- An action whose status does not matter ends normally. -/
theorem quietly_run {α : Type} (a : Act α) (b : Blk) : quietly a b = .ok () (match a b with
    | .ok _ t => t
    | .error _ t => t) := by
  simp only [quietly, Act.bind_run, Act.status_run]
  cases a b <;> rfl

theorem Act.exec'_ok {a : Act Unit} {b t : Blk} (h : a b = .ok () t) : a.exec' b = t := by simp [Act.exec', h]
theorem Act.exec'_error {a : Act Unit} {b t : Blk} {e : Nat} (h : a b = .error e t) : a.exec' b = t := by simp [Act.exec', h]

@[simp] theorem modSlot_run (k : Nat) (f : Slot → Slot) (b : Blk) : modSlot k f b = .ok () (b.mapSlot k f) := rfl
@[simp] theorem modCore_run (k : Nat) (f : CoreSt → CoreSt) (b : Blk) : modCore k f b = .ok () (b.setCore k (f (b.core k))) := rfl
@[simp] theorem setReg_run (o : Nat) (v : Word) (b : Blk) : setReg o v b = .ok () (b.setReg o v) := rfl
@[simp] theorem setFld_run (o hi lo v : Nat) (b : Blk) : setFld o hi lo v b = .ok () (b.setFld o hi lo v) := rfl
@[simp] theorem countFld_run (o hi lo n : Nat) (b : Blk) : countFld o hi lo n b = .ok () (b.count o hi lo n) := rfl
@[simp] theorem post_run (e : Ev) (b : Blk) : post e b = .ok () (b.withEv e) := rfl
@[simp] theorem sendMsi_run (n : Nat) (b : Blk) : sendMsi n b = .ok () (b.msiSource n) := rfl
@[simp] theorem setWait_run (c : Cx) (v : Wait) (b : Blk) :
    setWait c v b = .ok () (b.mapSlot c.key (fun r => { r with wait := v, waitFrom := b.aon.elapsed })) := rfl

/-- A Plynax instruction that issues and ends normally. -/
theorem upd_issue_done {s : State} {m : Member} {w : Word} {cls op k : Nat} {ok : Bool} {body : Cx → Act Unit} {t : Blk}
    (h : s.blk.issuer m w cls op = some k) (hok : ok = true) (hb : body (s.blk.cx k w) (s.blk.begun k w) = .ok () t) :
    s.upd (issue m w cls op ok body) = .next (s.after t) := by
  simp only [State.upd, State.after, issue_done h hok hb]

/-- A register write that Doze does not hold and that changes nothing the change log records. -/
theorem regw_unlogged {s : State} {src : Src} {off : Nat} {v : Word} {a : Act Unit} {t : Blk}
    (ht : s.blk.takes src off = true) (ha : a s.blk = .ok () t)
    (hk : (s.blk.reg off ^^^ t.reg off) &&& (if off = Reg.aonAlarm then -1 else ((regDesc off).map (·.ret)).getD 0) = 0) :
    s.regw src off v a = .next (s.after t) := by
  unfold Blk.takes at ht
  simp only [Bool.not_eq_true'] at ht
  simp only [State.regw, State.act, State.upd, State.after, Act.exec', regCmd, Act.bind_run, Act.get_run, ht, Bool.false_eq_true,
    if_false, logged, ha, hk, ne_eq, not_true_eq_false, Act.pure_run]

end Sys2Proof.Machine
end

