-- ==== Sys2Proof/Laws/Fields.lean ====
section
/-! SUPPORT. Bit fields: what a field reads after a field has been written, the same or another. -/
namespace Sys2Proof.Machine

theorem bits_testBit (x : Word) (hi lo j : Nat) : (bits x hi lo).testBit j = (decide (j < hi - lo + 1) && x.getLsbD (lo + j)) := by
  unfold bits
  rw [Nat.testBit_mod_two_pow, Nat.testBit_shiftRight, BitVec.testBit_toNat]

theorem bits_lt (x : Word) (hi lo : Nat) : bits x hi lo < 2 ^ (hi - lo + 1) := Nat.mod_lt _ (Nat.two_pow_pos _)

theorem setBits_getLsbD (x : Word) {hi lo : Nat} (v i : Nat) (h : lo ≤ hi) (hi64 : hi < 64) (hi' : i < 64) :
    (setBits x hi lo v).getLsbD i = if lo ≤ i ∧ i ≤ hi then v.testBit (i - lo) else x.getLsbD i := by
  unfold setBits
  simp only [BitVec.getLsbD_or, BitVec.getLsbD_and, BitVec.getLsbD_not, BitVec.getLsbD_ofNat, Nat.testBit_shiftLeft,
    Nat.testBit_two_pow_sub_one, hi', decide_true, Bool.true_and]
  by_cases h1 : lo ≤ i
  · by_cases h2 : i ≤ hi
    · simp [h1, h2, show i - lo < hi - lo + 1 by omega]
    · simp [h1, h2, show ¬ i - lo < hi - lo + 1 by omega]
  · simp [h1]

/-- A field reads what was written to it. -/
theorem bits_setBits_same (x : Word) {hi lo : Nat} (v : Nat) (h : lo ≤ hi) (hi64 : hi < 64) :
    bits (setBits x hi lo v) hi lo = v % 2 ^ (hi - lo + 1) := by
  apply Nat.eq_of_testBit_eq
  intro j
  rw [bits_testBit, Nat.testBit_mod_two_pow]
  by_cases hj : j < hi - lo + 1
  · rw [setBits_getLsbD x v _ h hi64 (by omega), if_pos (by omega)]; simp
  · simp [hj]

/-- A field that does not overlap the one written keeps its value. -/
theorem bits_setBits_ne (x : Word) {hi lo h' l' : Nat} (v : Nat) (h : lo ≤ hi) (hi64 : hi < 64) (hh : h' < 64) (hd : h' < lo ∨ hi < l')
    (hl : l' ≤ h') : bits (setBits x hi lo v) h' l' = bits x h' l' := by
  apply Nat.eq_of_testBit_eq
  intro j
  rw [bits_testBit, bits_testBit]
  by_cases hj : j < h' - l' + 1
  · rw [setBits_getLsbD x v _ h hi64 (by omega), if_neg (by omega)]
  · simp [hj]

theorem bit_setBits (x : Word) {hi lo : Nat} (v i : Nat) (h : lo ≤ hi) (hi64 : hi < 64) (hi' : i < 64) :
    bit (setBits x hi lo v) i = if lo ≤ i ∧ i ≤ hi then v.testBit (i - lo) else bit x i := setBits_getLsbD x v i h hi64 hi'

theorem bit_setBit (x : Word) {n i : Nat} (v : Bool) (hn : n < 64) (hi' : i < 64) :
    bit (setBit x n v) i = if i = n then v else bit x i := by
  unfold setBit
  rw [bit_setBits x _ _ (Nat.le_refl _) hn hi']
  by_cases h : i = n
  · subst h; cases v <;> simp
  · rw [if_neg (by omega), if_neg h]

/-- A register field after it has been written, and another field of the register. -/
theorem Blk.fld_setFld_same (b : Blk) (o : Nat) {hi lo : Nat} (v : Nat) (h : lo ≤ hi) (hi64 : hi < 64) :
    (b.setFld o hi lo v).fld o hi lo = v % 2 ^ (hi - lo + 1) := by
  unfold Blk.fld Blk.setFld
  rw [Blk.reg_setReg_same, bits_setBits_same _ _ h hi64]

theorem Blk.fld_setFld_ne (b : Blk) (o : Nat) {hi lo h' l' : Nat} (v : Nat) (h : lo ≤ hi) (hi64 : hi < 64) (hh : h' < 64)
    (hd : h' < lo ∨ hi < l') (hl : l' ≤ h') : (b.setFld o hi lo v).fld o h' l' = b.fld o h' l' := by
  unfold Blk.fld Blk.setFld
  rw [Blk.reg_setReg_same, bits_setBits_ne _ _ h hi64 hh hd hl]

theorem Blk.fld_setReg_ne (b : Blk) {o p hi lo : Nat} (v : Word) (h : p ≠ o) : (b.setReg o v).fld p hi lo = b.fld p hi lo := by
  unfold Blk.fld; rw [Blk.reg_setReg_ne _ _ h]

theorem Blk.fld_setFld_other (b : Blk) {o p hi lo h' l' : Nat} (v : Nat) (h : p ≠ o) :
    (b.setFld o hi lo v).fld p h' l' = b.fld p h' l' := Blk.fld_setReg_ne _ _ h

end Sys2Proof.Machine
end

