-- ==== Sys2Proof/Laws/Memory.lean ====
section
/-! SUPPORT. Memory: every operation on the list of cells keeps the canonical form, and what a read gives after a write. -/
namespace Sys2Proof.Machine

/-! ### The canonical form -/

/-- The byte that a list of cells holds at an address. -/
def cellAt (m : List Host.Cell) (a : Nat) : Byte := ((m.find? (fun c => decide (c.1 = a))).map (·.2)).getD Memory.unlisted

theorem wf_nil : Memory.wf [] := ⟨.nil, by simp⟩

theorem wf_filter {m : List Host.Cell} (p : Host.Cell → Bool) (h : Memory.wf m) : Memory.wf (m.filter p) :=
  ⟨h.1.filter p, fun c hc => h.2 c (List.mem_filter.mp hc).1⟩

theorem cellsOf_mem {bs : List Byte} {a : Nat} {c : Host.Cell} (h : c ∈ cellsOf a bs) :
    a ≤ c.1 ∧ c.1 < a + bs.length ∧ c.2 ≠ Memory.unlisted := by
  induction bs generalizing a with
  | nil => simp [cellsOf] at h
  | cons v r ih =>
    unfold cellsOf at h
    split at h
    · have := ih h; simp only [List.length_cons]; exact ⟨by omega, by omega, this.2.2⟩
    · rcases List.mem_cons.mp h with rfl | h
      · exact ⟨Nat.le_refl _, by simp, by assumption⟩
      · have := ih h; simp only [List.length_cons]; exact ⟨by omega, by omega, this.2.2⟩

theorem wf_cellsOf (a : Nat) (bs : List Byte) : Memory.wf (cellsOf a bs) := by
  refine ⟨?_, fun c hc => (cellsOf_mem hc).2.2⟩
  induction bs generalizing a with
  | nil => exact .nil
  | cons v r ih =>
    unfold cellsOf
    split
    · exact ih _
    · refine List.pairwise_cons.mpr ⟨fun c hc => ?_, ih _⟩
      have := (cellsOf_mem hc).1; simp only; omega

/-- A write keeps the canonical form. -/
theorem wf_memWrite {m : List Host.Cell} (a : Nat) (bs : List Byte) (h : Memory.wf m) : Memory.wf (memWrite m a bs) := by
  have hl := wf_filter (fun c => decide (c.1 < a)) h
  have hr := wf_filter (fun c => decide (a + bs.length ≤ c.1)) h
  have hc := wf_cellsOf a bs
  refine ⟨?_, ?_⟩
  · unfold memWrite
    rw [List.append_assoc, List.pairwise_append]
    refine ⟨hl.1, List.pairwise_append.mpr ⟨hc.1, hr.1, ?_⟩, ?_⟩
    · intro x hx y hy
      have := cellsOf_mem hx; have := List.mem_filter.mp hy
      simp only [decide_eq_true_eq] at this; omega
    · intro x hx y hy
      have := List.mem_filter.mp hx
      simp only [decide_eq_true_eq] at this
      rcases List.mem_append.mp hy with hy | hy
      · have := cellsOf_mem hy; omega
      · have := List.mem_filter.mp hy
        simp only [decide_eq_true_eq] at this; omega
  · intro c hcm
    unfold memWrite at hcm
    rcases List.mem_append.mp hcm with hcm | hcm
    · rcases List.mem_append.mp hcm with hcm | hcm
      · exact hl.2 c hcm
      · exact hc.2 c hcm
    · exact hr.2 c hcm

theorem memOk_putBytes {b : Blk} (a : Nat) (bs : List Byte) (h : Memory.wf b.mem.cells) : Memory.wf (b.putBytes a bs).mem.cells :=
  wf_memWrite a bs h

theorem memOk_zeroRange {b : Blk} (a n : Nat) (h : Memory.wf b.mem.cells) : Memory.wf (b.zeroRange a n).mem.cells := wf_filter _ h

/-- Moving the cells of one range to another (R643) keeps the canonical form. -/
theorem wf_moved (l m : List Host.Cell) (tgt : Nat → Nat) (h : Memory.wf m) :
    Memory.wf (l.foldl (fun m c => memWrite m (tgt c.1) [c.2]) m) := by
  induction l generalizing m with
  | nil => exact h
  | cons c r ih => exact ih _ (wf_memWrite _ _ h)

@[simp] theorem setFmeta_cells (b : Blk) (f : Nat) (x : FrameMeta) : (b.setFmeta f x).mem.cells = b.mem.cells := rfl
@[simp] theorem putBytes_cells (b : Blk) (a : Nat) (bs : List Byte) : (b.putBytes a bs).mem.cells = memWrite b.mem.cells a bs := rfl

theorem reset_memOk : Memory.wf State.reset.blk.mem.cells := wf_nil

/-! ### Reads and writes -/

@[simp] theorem expand_length (n a : Nat) (m : List Host.Cell) : (expand n a m).length = n := by
  induction n generalizing a m with
  | zero => rfl
  | succ n ih =>
    match m with
    | [] => simp [expand, ih]
    | (k, v) :: r => unfold expand; split <;> simp [ih]

@[simp] theorem memRead_length (m : List Host.Cell) (a n : Nat) : (memRead m a n).length = n := expand_length ..

theorem cellAt_cons (c : Host.Cell) (r : List Host.Cell) (a : Nat) :
    cellAt (c :: r) a = if c.1 = a then c.2 else cellAt r a := by
  unfold cellAt; by_cases h : c.1 = a <;> simp [List.find?_cons, h]

theorem cellAt_none {m : List Host.Cell} {a : Nat} (h : ∀ c ∈ m, c.1 ≠ a) : cellAt m a = Memory.unlisted := by
  induction m with
  | nil => rfl
  | cons c r ih =>
    rw [cellAt_cons, if_neg (h c (by simp)), ih fun x hx => h x (List.mem_cons_of_mem _ hx)]

theorem cellAt_append (l r : List Host.Cell) (a : Nat) (h : ∀ c ∈ l, c.1 ≠ a) : cellAt (l ++ r) a = cellAt r a := by
  induction l with
  | nil => rfl
  | cons c t ih =>
    rw [List.cons_append, cellAt_cons, if_neg (h c (by simp)), ih fun x hx => h x (List.mem_cons_of_mem _ hx)]

theorem cellAt_append_left (l r : List Host.Cell) (a : Nat) (h : ∀ c ∈ r, c.1 ≠ a) : cellAt (l ++ r) a = cellAt l a := by
  induction l with
  | nil => exact cellAt_none h
  | cons c t ih => rw [List.cons_append, cellAt_cons, cellAt_cons, ih]

theorem cellAt_filter (m : List Host.Cell) (p : Host.Cell → Bool) (a : Nat) (h : ∀ c ∈ m, c.1 = a → p c = true) :
    cellAt (m.filter p) a = cellAt m a := by
  induction m with
  | nil => rfl
  | cons c r ih =>
    have ihr := ih fun x hx => h x (List.mem_cons_of_mem _ hx)
    rw [List.filter_cons]
    by_cases hp : p c = true
    · rw [if_pos hp, cellAt_cons, cellAt_cons, ihr]
    · rw [if_neg hp, ihr, cellAt_cons, if_neg fun hc => hp (h c (by simp) hc)]

theorem expand_get {n a i : Nat} {m : List Host.Cell} (hm : m.Pairwise (fun x y => x.1 < y.1)) (hlo : ∀ c ∈ m, a ≤ c.1) (hi : i < n) :
    (expand n a m)[i]? = some (cellAt m (a + i)) := by
  induction n generalizing a i m with
  | zero => omega
  | succ n ih =>
    match m with
    | [] =>
      cases i with
      | zero => rfl
      | succ i =>
        show (expand n (a + 1) [])[i]? = _
        rw [ih .nil (by simp) (by omega)]; rfl
    | (k, v) :: r =>
      have hr := List.pairwise_cons.mp hm
      unfold expand
      by_cases hk : k = a
      · rw [if_pos hk]
        cases i with
        | zero => simp [cellAt_cons, hk]
        | succ i =>
          rw [List.getElem?_cons_succ, ih hr.2 (fun c hc => by have := hr.1 c hc; simp only at this; omega) (by omega), cellAt_cons,
            if_neg (by simp only; omega)]
          congr 2; omega
      · rw [if_neg hk]
        have hka : a < k := by have := hlo (k, v) (by simp); simp only at this; omega
        cases i with
        | zero =>
          rw [List.getElem?_cons_zero, cellAt_none fun c hc => by
            rcases List.mem_cons.mp hc with rfl | hc
            · simp only; omega
            · have := hr.1 c hc; simp only at this; omega]
        | succ i =>
          rw [List.getElem?_cons_succ, ih hm (fun c hc => by
            rcases List.mem_cons.mp hc with rfl | hc
            · simp only; omega
            · have := hr.1 c hc; simp only at this; omega) (by omega)]
          congr 2; omega

/-- A read gives, byte for byte, what the cells hold. -/
theorem memRead_get {m : List Host.Cell} {a n i : Nat} (h : Memory.wf m) (hi : i < n) :
    (memRead m a n)[i]? = some (cellAt m (a + i)) := by
  unfold memRead
  rw [expand_get (h.1.filter _) (fun c hc => by
    have := (List.mem_filter.mp hc).2; simp only [decide_eq_true_eq] at this; exact this.1) hi,
    cellAt_filter _ _ _ (fun c _ hc => by simp only [decide_eq_true_eq]; omega)]

theorem cellAt_cellsOf {bs : List Byte} {a i : Nat} (hi : i < bs.length) : cellAt (cellsOf a bs) (a + i) = bs[i] := by
  induction bs generalizing a i with
  | nil => simp at hi
  | cons v r ih =>
    unfold cellsOf
    cases i with
    | zero =>
      split
      · rename_i hv
        rw [cellAt_none fun c hc => by have := cellsOf_mem hc; omega]; simpa using hv.symm
      · simp [cellAt_cons]
    | succ i =>
      have hr := ih (a := a + 1) (i := i) (by simpa using hi)
      have e : a + (i + 1) = a + 1 + i := by omega
      split
      · rw [e, hr]; simp
      · rw [cellAt_cons, if_neg (by simp only; omega), e, hr]; simp

/-- What memory holds after a write: the bytes written there, and elsewhere what it held. -/
theorem cellAt_memWrite {m : List Host.Cell} {a y : Nat} {bs : List Byte} :
    cellAt (memWrite m a bs) y = if h : a ≤ y ∧ y < a + bs.length then bs[y - a]'(by omega) else cellAt m y := by
  unfold memWrite
  have hlow : ∀ c ∈ m.filter (fun c => decide (c.1 < a)), c.1 < a := fun c hc => by
    have := (List.mem_filter.mp hc).2; simpa using this
  have hhigh : ∀ c ∈ m.filter (fun c => decide (a + bs.length ≤ c.1)), a + bs.length ≤ c.1 := fun c hc => by
    have := (List.mem_filter.mp hc).2; simpa using this
  split
  · rename_i h
    rw [List.append_assoc, cellAt_append _ _ _ fun c hc => by have := hlow c hc; omega,
      cellAt_append_left _ _ _ fun c hc => by have := hhigh c hc; omega]
    obtain ⟨i, hi⟩ : ∃ i, y = a + i := ⟨y - a, by omega⟩
    subst hi
    rw [cellAt_cellsOf (by omega)]; simp
  · rename_i h
    by_cases hy : y < a
    · rw [List.append_assoc, cellAt_append_left _ _ _ fun c hc => by
        rcases List.mem_append.mp hc with hc | hc
        · have := cellsOf_mem hc; omega
        · have := hhigh c hc; omega]
      exact cellAt_filter _ _ _ fun c _ hc => by simp only [decide_eq_true_eq]; omega
    · rw [cellAt_append _ _ _ fun c hc => by
        rcases List.mem_append.mp hc with hc | hc
        · have := hlow c hc; omega
        · have := cellsOf_mem hc; omega]
      exact cellAt_filter _ _ _ fun c _ hc => by simp only [decide_eq_true_eq]; omega

/-- A read of what was just written gives it back. -/
theorem memRead_memWrite_same {m : List Host.Cell} {a : Nat} {bs : List Byte} (h : Memory.wf m) :
    memRead (memWrite m a bs) a bs.length = bs := by
  apply List.ext_getElem?
  intro i
  by_cases hi : i < bs.length
  · rw [memRead_get (wf_memWrite _ _ h) hi, cellAt_memWrite, dif_pos (by omega), List.getElem?_eq_getElem hi]; simp
  · rw [List.getElem?_eq_none (by simp; omega), List.getElem?_eq_none (by omega)]

/-- A read outside the bytes written gives what it gave before. -/
theorem memRead_memWrite_other {m : List Host.Cell} {a y n : Nat} {bs : List Byte} (h : Memory.wf m)
    (hd : y + n ≤ a ∨ a + bs.length ≤ y) : memRead (memWrite m a bs) y n = memRead m y n := by
  apply List.ext_getElem?
  intro i
  by_cases hi : i < n
  · rw [memRead_get (wf_memWrite _ _ h) hi, memRead_get h hi, cellAt_memWrite, dif_neg (by omega)]
  · rw [List.getElem?_eq_none (by simp; omega), List.getElem?_eq_none (by simp; omega)]

/-- Two canonical memories that hold the same byte everywhere are the same list. -/
theorem cells_ext {m n : List Host.Cell} (hm : Memory.wf m) (hn : Memory.wf n) (h : ∀ a, cellAt m a = cellAt n a) : m = n := by
  induction m generalizing n with
  | nil =>
    cases n with
    | nil => rfl
    | cons c r =>
      have := h c.1
      rw [cellAt_cons, if_pos rfl] at this
      exact absurd this.symm (hn.2 c (by simp))
  | cons c r ih =>
    have hr := List.pairwise_cons.mp hm.1
    cases n with
    | nil =>
      have := h c.1
      rw [cellAt_cons, if_pos rfl] at this
      exact absurd this (hm.2 c (by simp))
    | cons d t =>
      have ht := List.pairwise_cons.mp hn.1
      have hcd : c.1 = d.1 := by
        rcases Nat.lt_trichotomy c.1 d.1 with hlt | he | hlt
        · have := h c.1
          rw [cellAt_cons, if_pos rfl, cellAt_cons, if_neg (by omega), cellAt_none fun x hx => by have := ht.1 x hx; omega] at this
          exact absurd this (hm.2 c (by simp))
        · exact he
        · have := h d.1
          rw [cellAt_cons, if_neg (by omega), cellAt_cons, if_pos rfl, cellAt_none fun x hx => by have := hr.1 x hx; omega] at this
          exact absurd this.symm (hn.2 d (by simp))
      have hv : c.2 = d.2 := by
        have := h c.1
        rwa [cellAt_cons, if_pos rfl, cellAt_cons, if_pos hcd.symm] at this
      have hrt : r = t := ih ⟨hr.2, fun x hx => hm.2 x (List.mem_cons_of_mem _ hx)⟩ ⟨ht.2, fun x hx => hn.2 x (List.mem_cons_of_mem _ hx)⟩
        fun a => by
          by_cases ha : c.1 = a
          · rw [cellAt_none fun x hx => by have := hr.1 x hx; omega, cellAt_none fun x hx => by have := ht.1 x hx; omega]
          · have := h a
            rwa [cellAt_cons, if_neg ha, cellAt_cons, if_neg (by omega)] at this
      rw [hrt, Prod.ext hcd hv]

end Sys2Proof.Machine
end

