-- ==== Sys2Proof/WellFormed.lean ====
section
/-! DEFINITION. Well-formed commands: the shape that the spec gives the operands of a row, which a sender keeps and the machine does
not rely on.  A command that is not well-formed still has a meaning: the machine checks what the spec has it check. -/
namespace Sys2Proof
open Sys2Proof.Machine

/-- R283: a frame has 512 sideband bytes and 8,192 data bytes; shorter lists stand for bytes of zero. -/
def Frame.wf (f : Frame) : Bool := decide (f.side.length ≤ 512) && decide (f.data.length ≤ 8192)

/-- R522, R554, R557: the payload of a packet is one frame, of 8,768 bytes, or LEN bytes, at most 8,192. -/
def Packet.wf (p : Packet) : Bool :=
  match p.frame with
  | some f => f.wf && decide (p.bytes = []) && decide (p.len = 8768)
  | none => decide (p.bytes.length = p.len.toNat) && decide (p.bytes.length ≤ 8192)

/-- R41: a register access has 4 or 8 bytes, is aligned to its size and lies in the register window. -/
def regAccessWf (off size : Nat) : Bool := decide (size = 4 ∨ size = 8) && decide (off % size = 0) && decide (off < 0x9000000)

/-- R40, R420: the sizes of a host-core access, its alignment, and the bytes that it brings. -/
def HostAccess.wf (a : HostAccess) : Bool :=
  [1, 2, 4, 8, 16, 32, 64].contains a.size && decide (a.addr % a.size = 0) && decide (a.addr < 2 ^ 52) &&
  decide (a.data.length = if a.op = .load ∨ a.op = .lr then 0 else a.size)

/-- R139, R140: the class and the opcode of a first word. -/
def codeIs (cls op : Nat) (w : Word) : Bool := decide (bits w 63 60 = cls) && decide (bits w 59 54 = op)

/-- R629: the shape of a firmware image: an Ed25519 key and signature, and a security version up to 64. -/
def Image.wf (x : Image) : Bool := decide (x.key.length = 32) && decide (x.signature.length = 64) && decide (x.svn ≤ 64)

/-- A command has the shape that the spec gives its row; a row of the second part carries nothing that could be out of shape. -/
def Instr.wf : Instr → Bool
  | .registerWrite _ off size _ => regAccessWf off size
  | .hostMemoryAccess _ a => a.wf
  | .ucieRetrainStart u => decide (u < 24)
  | .ucieRetrainDone u => decide (u < 24)
  | .ucieRetrainTimeout u => decide (u < 24)
  | .seqNop _ w => codeIs 0 0 w
  | .seqEnd _ w => codeIs 0 1 w
  | .seqLoop _ w => codeIs 0 2 w
  | .seqTag _ w => codeIs 0 3 w
  | .seqFence _ w => codeIs 0 4 w
  | .seqSeed _ w _ => codeIs 0 5 w
  | .seqScalar _ w _ => codeIs 0 6 w
  | .seqMask _ w => codeIs 0 7 w
  | .syncWait _ w _ => codeIs 1 0 w
  | .syncSignal _ w _ => codeIs 1 1 w
  | .syncArrive _ w _ => codeIs 1 2 w
  | .syncSet _ w _ => codeIs 1 3 w
  | .syncSignalR _ w _ => codeIs 1 5 w
  | .syncArriveR _ w _ => codeIs 1 6 w
  | .moveTile _ w => codeIs 2 0 w
  | .moveGather _ w => codeIs 2 1 w
  | .moveAfn _ w => codeIs 2 2 w
  | .moveAfnRelease _ w => codeIs 2 2 w
  | .moveQsend _ w => codeIs 2 3 w
  | .moveQpop _ w => codeIs 2 4 w
  | .matLds _ w => codeIs 3 0 w
  | .matSwp _ w => codeIs 3 1 w
  | .matStr _ w => codeIs 3 2 w
  | .matDrn _ w _ => codeIs 3 3 w
  | .matSlotRelease _ w => codeIs 3 4 w
  | .matSlotPersist _ w => codeIs 3 4 w
  | .matSlotUnpersist _ w => codeIs 3 4 w
  | .vecAdd _ w _ => codeIs 4 0 w
  | .vecSub _ w _ => codeIs 4 1 w
  | .vecMul _ w _ => codeIs 4 2 w
  | .vecFma _ w _ => codeIs 4 3 w
  | .vecMin _ w _ => codeIs 4 4 w
  | .vecMax _ w _ => codeIs 4 5 w
  | .vecAbs _ w _ => codeIs 4 6 w
  | .vecNeg _ w _ => codeIs 4 7 w
  | .vecRcp _ w _ => codeIs 4 8 w
  | .vecRsq _ w _ => codeIs 4 9 w
  | .vecExp _ w _ => codeIs 4 0xA w
  | .vecLog _ w _ => codeIs 4 0xB w
  | .vecTanh _ w _ => codeIs 4 0xC w
  | .vecSel _ w _ => codeIs 4 0xD w
  | .vecCmp _ w _ => codeIs 4 0xE w
  | .vecCvt _ w _ => codeIs 4 0xF w
  | .vecExpand _ w _ => codeIs 4 0x10 w
  | .vecNorm _ w _ => codeIs 4 0x11 w
  | .vecMop _ w => codeIs 4 0x12 w
  | .redRdc _ w => codeIs 5 0 w
  | .redAdd _ w => codeIs 5 1 w
  | .redArm _ w _ => codeIs 5 2 w
  | .redPush _ w => codeIs 5 3 w
  | .redCls _ w => codeIs 5 4 w
  | .xferCopy _ w _ => codeIs 6 0 w
  | .xferCopyi _ w pl => codeIs 6 1 w && decide (pl.length = bits w 52 48)
  | .xferGesso _ w _ => codeIs 6 2 w
  | .xferPlacePromote _ w => codeIs 6 3 w
  | .xferPlaceEvict _ w => codeIs 6 3 w
  | .xferRwrite _ w _ => codeIs 6 8 w
  | .xferRwritei _ w _ pl => codeIs 6 9 w && decide (pl.length = bits w 52 48)
  | .xferRread _ w _ => codeIs 6 0xA w
  | .xferRatom _ w _ => codeIs 6 0xB w
  | .xferRtadd _ w _ => codeIs 6 0xC w
  | .xferColl _ w => codeIs 6 0x10 w
  | .xferPerm _ w => codeIs 6 0x11 w
  | .updProg _ w => codeIs 7 0 w
  | .updRun _ w _ => codeIs 7 1 w
  | .updSnap _ w _ => codeIs 7 2 w
  | .updUnpin _ w => codeIs 7 3 w
  | .tileArrival a => a.f.wf
  | .sqFrameArrival _ _ f => f.wf
  | .memoryLineRead _ n _ => decide (1 ≤ n ∧ n ≤ 128)
  | .wholeFrameWrite pa f => decide (pa % 8192 = 0) && f.wf
  | .subFrameWrite pa bs => decide (bs ≠ []) && decide (pa % 8192 + bs.length ≤ 8192)
  | .scrubSram e => decide (e.source ≤ 20)
  | .frameReceive _ f => decide (14 ≤ f.bytes.length)
  | .cragilWrite p => p.wf
  | .cragilWriteSignal p => p.wf
  | .cragilReadRequest p => p.wf
  | .cragilReadResponse p => p.wf
  | .cragilAtomic p => p.wf
  | .cragilAtomicResponse p => p.wf
  | .cragilTileAdd p => p.wf
  | .cragilAck p => p.wf
  | .cragilNak p => p.wf
  | .cragilRnr p => p.wf
  | .transitForward _ p => p.wf
  | .colGrant p => p.wf
  | .colPdone p => p.wf
  | .colMirrorWrite p => p.wf
  | .colMirrorAck p => p.wf
  | .colLossNotice p => p.wf
  | .apertureLoad _ a n => decide (1 ≤ n) && decide (a < 2 ^ 52)
  | .apertureStore _ a bs => decide (bs ≠ []) && decide (a < 2 ^ 52)
  | .apertureAmo _ a _ n _ => decide (1 ≤ n) && decide (a < 2 ^ 52)
  | .setOwnerKey _ key _ sig => decide (key.length = 32) && decide (sig.length = 64)
  | .pldmFirmwareUpdate _ (some x) => x.wf
  | .challenge _ slot nonce => decide (slot < 8) && decide (nonce.length = 32)
  | .getMeasurements _ i _ nonce => decide (i < 256) && decide (nonce.length = 32)
  | .debugUnlock _ t => decide (t.key.length = 32) && decide (t.signature.length = 64)
  | .unitTrainingDone n _ _ _ => decide (n < 9)
  | .stageTimeout n => decide (n < 9)
  | .stageDdr5 l => decide (l.length ≤ 8)
  | .autoCalibration k _ => decide (2 ≤ k ∧ k ≤ 4)
  | _ => true

end Sys2Proof
end

