-- ==== Sys2Proof/Tests/Slice0.lean ====
section
/-! SUPPORT. Tests of the model: the checks of WellFormed, the decoder, and for every statement of the provers one theorem with concrete states
and operands that meet its hypotheses. -/
namespace Sys2Proof.Tests
set_option Elab.async false
open Sys2Proof Sys2Proof.Machine

/-! ### WellFormed -/

/-- A member and a word of no class. -/
def aMember : Member := ⟨0, 0, false⟩
def noClass : Word := 0xF000000000000000

theorem test_wf_refuses_class_1 : (let m := aMember; let w := noClass; ([
     .seqNop m w, .seqEnd m w, .seqLoop m w, .seqTag m w, .seqFence m w,
     .seqSeed m w 0, .seqScalar m w 0, .seqMask m w, .syncWait m w 0, .syncSignal m w 0,
     .syncArrive m w 0, .syncSet m w 0, .syncSignalR m w 0, .syncArriveR m w 0, .moveTile m w,
     .moveGather m w, .moveAfn m w, .moveAfnRelease m w, .moveQsend m w, .moveQpop m w,
     .matLds m w, .matSwp m w, .matStr m w, .matDrn m w 0, .matSlotRelease m w,
     .matSlotPersist m w, .matSlotUnpersist m w, .vecAdd m w 0, .vecSub m w 0, .vecMul m w 0,
     .vecFma m w 0, .vecMin m w 0, .vecMax m w 0, .vecAbs m w 0, .vecNeg m w 0,
     .vecRcp m w 0, .vecRsq m w 0, .vecExp m w 0, .vecLog m w 0, .vecTanh m w 0] : List Instr).all (fun i => !i.wf)) = true := by decide

theorem test_wf_refuses_class_2 : (let m := aMember; let w := noClass; ([
     .vecSel m w 0, .vecCmp m w 0, .vecCvt m w 0, .vecExpand m w 0, .vecNorm m w 0,
     .vecMop m w, .redRdc m w, .redAdd m w, .redArm m w 0, .redPush m w,
     .redCls m w, .xferCopy m w 0, .xferCopyi m w [], .xferGesso m w 0, .xferPlacePromote m w,
     .xferPlaceEvict m w, .xferRwrite m w 0, .xferRwritei m w 0 [], .xferRread m w 0, .xferRatom m w 0,
     .xferRtadd m w 0, .xferColl m w, .xferPerm m w, .updProg m w, .updRun m w 0,
     .updSnap m w 0, .updUnpin m w] : List Instr).all (fun i => !i.wf)) = true := by decide

theorem test_wf_refuses_payload : (Instr.xferCopyi aMember 0x6041000000000000 []).wf = false ∧
    (Instr.xferRwritei aMember 0x6241000000000000 0 []).wf = false := by decide

theorem test_wf_refuses_accesses : ([.registerWrite .host 4 8 0, .registerWrite .host 0 2 0, .registerWrite .host 0x9000000 8 0,
    .hostMemoryAccess 0 ⟨.load, 0, 3, [], false⟩, .hostMemoryAccess 0 ⟨.load, 4, 8, [], false⟩, .hostMemoryAccess 0 ⟨.load, 2 ^ 52, 8, [], false⟩,
    .hostMemoryAccess 0 ⟨.store, 0, 8, [], false⟩, .hostMemoryAccess 0 ⟨.load, 0, 1, [0], false⟩, .ucieRetrainStart 24, .ucieRetrainDone 24,
    .ucieRetrainTimeout 24, .memoryLineRead 0 0 [], .memoryLineRead 0 129 [], .wholeFrameWrite 64 {}, .subFrameWrite 0 [],
    .subFrameWrite 8191 [0, 0], .scrubSram ⟨21, 0, false⟩, .apertureLoad 0 0 0, .apertureLoad 0 (2 ^ 52) 8, .apertureStore 0 0 [],
    .apertureStore 0 (2 ^ 52) [0], .apertureAmo 0 0 .amoAdd 0 0, .apertureAmo 0 (2 ^ 52) .amoAdd 8 0] : List Instr).all (fun i => !i.wf) = true := by
  decide +kernel

/-- A packet that says 5 bytes and brings none. -/
def badPacket : Packet := { len := 5 }

theorem test_wf_refuses_packets : ([.cragilWrite badPacket, .cragilWriteSignal badPacket, .cragilReadRequest badPacket, .cragilReadResponse badPacket,
    .cragilAtomic badPacket, .cragilAtomicResponse badPacket, .cragilTileAdd badPacket, .cragilAck badPacket, .cragilNak badPacket,
    .cragilRnr badPacket, .transitForward 0 badPacket, .colGrant badPacket, .colPdone badPacket, .colMirrorWrite badPacket,
    .colMirrorAck badPacket, .colLossNotice badPacket, .cragilWrite { frame := some {}, len := 8768, bytes := [0] },
    .cragilWrite { frame := some {}, len := 8192 }] : List Instr).all (fun i => !i.wf) = true := by decide

theorem test_wf_refuses_frames : ([.tileArrival ⟨0, 0, 0, 0, none, { side := List.replicate 513 0 }, none, none⟩,
    .sqFrameArrival 0 0 { side := List.replicate 513 0 }, .frameReceive 0 ⟨[0], false, 0, 0⟩] : List Instr).all (fun i => !i.wf) = true := by
  decide +kernel

theorem test_wf_refuses_requests : ([.setOwnerKey .host [] [] (List.replicate 64 0), .setOwnerKey .host (List.replicate 32 0) [] [],
    .pldmFirmwareUpdate .host (some ⟨[], List.replicate 64 0, [], 0, 0, 0, true, 0, false, []⟩),
    .pldmFirmwareUpdate .host (some ⟨[], [], List.replicate 32 0, 0, 0, 0, true, 0, false, []⟩),
    .pldmFirmwareUpdate .host (some ⟨[], List.replicate 64 0, List.replicate 32 0, 0, 65, 0, true, 0, false, []⟩),
    .challenge .host 8 (List.replicate 32 0), .challenge .host 0 [], .getMeasurements .host 256 false (List.replicate 32 0),
    .getMeasurements .host 0 false [], .debugUnlock .host ⟨0, [], 0, 0, List.replicate 64 0⟩, .debugUnlock .host ⟨0, List.replicate 32 0, 0, 0, []⟩,
    .unitTrainingDone 9 0 true 0, .stageTimeout 9, .stageDdr5 (List.replicate 9 none), .autoCalibration 1 0,
    .autoCalibration 5 0] : List Instr).all (fun i => !i.wf) = true := by decide +kernel

theorem test_wf_accepts : ([.registerWrite .host 0 8 0, .hostMemoryAccess 0 ⟨.store, 8, 8, List.replicate 8 0, true⟩, .seqNop aMember 0,
    .xferCopyi aMember 0x6041000000000000 [0], .cragilWrite { len := 1, bytes := [7] }, .bucketLeak] : List Instr).all (fun i => i.wf) = true := by
  decide +kernel

/-! ### Decode -/

/-- The table gives no row any bits, so no word spells a command. -/
theorem test_no_word_spells_a_command : decodeTableWord 64 0 = none ∧ decodeTableWord 64 0x6041000000000000 = none := by decide

/-! ### Witnesses: states -/

/-- An action's outcome, when it ends normally and what it leaves passes a check. -/
def okIs {α : Type} (a : EStateM.Result Nat Blk α) (p : α → Blk → Bool) : Bool :=
  match a with
  | .ok x t => p x t
  | .error _ _ => false

theorem of_okIs {α : Type} [DecidableEq α] {a : EStateM.Result Nat Blk α} {x : α} {t : Blk}
    (h : okIs a (fun y u => decide (y = x ∧ u = t)) = true) : a = .ok x t := by
  cases a with
  | ok y u => obtain ⟨rfl, rfl⟩ := of_decide_eq_true h; rfl
  | error e u => simp [okIs] at h

theorem ex_of_okIs {α : Type} {a : EStateM.Result Nat Blk α} {p : α → Blk → Bool} (h : okIs a p = true) :
    ∃ x t, a = .ok x t ∧ p x t = true := by
  cases a with
  | ok y u => exact ⟨y, u, rfl, h⟩
  | error e u => simp [okIs] at h

/-- A slot that runs a stream of partition 0, context 1. -/
def slotRun : Slot := { bound := true, ctx := 1, st := .run, stt := 1 }

/-- The package after reset with logical core 0 of die 0 on physical core 0, whose foreground slot runs a stream. -/
def blkRun : Blk := { Blk.reset with regs := sput Blk.reset.regs (Reg.pkgSmap 0) 0x80, slots := [(0, slotRun)] }
def stRun : State := ⟨[], blkRun⟩


theorem sget_prop {α : Type} (p : α → Prop) {d : α} (hd : p d) : ∀ {m : SMap α}, (∀ x ∈ m, p x.2) → ∀ i, p (sget d m i)
  | [], _, _ => hd
  | (k, v) :: r, h, i => by
    rw [sget]
    split
    · exact h (k, v) List.mem_cons_self
    · exact sget_prop p hd (fun x hx => h x (List.mem_cons_of_mem _ hx)) i

theorem clean_of {b : Blk} (h : ∀ x ∈ b.mem.fmeta, x.2.errs = []) (hi : bit (b.reg Reg.eccInject) 63 = false) : b.Clean :=
  ⟨fun f => sget_prop (fun m : FrameMeta => m.errs = []) (d := {}) rfl h f, hi⟩

/-- Registers of a package with 1 GiB of each tier, whose partition 0 has its translation table in cluster store 0 of die 0. -/
def memRegs : SMap Word :=
  [(Reg.pkgSmap 0, 0x80), (Reg.memTop 0, 0x040040000000), (Reg.memTop 1, 0x048040000000), (Reg.memTop 2, 0x40000000),
    (Reg.prtPart 0, 0x080008000000)].foldl (fun m x => sput m x.1 x.2) Blk.reset.regs

/-- The table: six leaves of 1 GiB, to the stores of die 0, DDR5, HBM of die 0, PCIe, HBM of die 1 and the logical view. -/
def tableCells : List Host.Cell :=
  [(5, 0x08), (7, 0xF8), (15, 0xF8), (21, 0x04), (23, 0xF8), (29, 0x10), (31, 0xF8), (36, 0x80), (37, 0x04), (39, 0xF8),
    (43, 0x80), (45, 0x08), (47, 0xF8)].map (fun c => (0x080008000000 + c.1, c.2))

/-- The package with its tiers and a translation table, the first and the last frame of DDR5 written. -/
def blkMem : Blk := { blkRun with
  regs := memRegs, mem := { cells := tableCells, fmeta := [(0, { gen := 1 }), (0x1FFFF, { gen := 1 })] } }
def stMem : State := ⟨[], blkMem⟩

theorem blkMem_clean : blkMem.Clean := clean_of (by decide +kernel) (by decide +kernel)
theorem buffers_of {b : Blk} (h : b.mem.hostDirty = []) (h' : b.mem.merge = []) : b.BuffersOk := by
  simp [Blk.BuffersOk, h, h']
theorem blkMem_buffers : blkMem.BuffersOk := buffers_of rfl rfl

/-! ### Witnesses: the whole machine -/

theorem witness_EmptyQueueTicks : ({ Blk.reset with pwr := { Blk.reset.pwr with aux := false } } : Blk).pwr.aux = false ∧ Blk.reset.pwr.aux = true ∧
    Blk.reset.pwr.on = false ∧ Blk.reset.aon.frac < 2 ^ 40 ∧
    ({ Blk.reset with pwr := { Blk.reset.pwr with on := true }, aon := { frac := 2 ^ 40 - 1 } } : Blk).aon.frac < 2 ^ 40 := by decide +kernel

theorem witness_ExecKeepsQueue : ∃ t, exec (.jtagInstruction .bypass) ⟨[.bucketLeak], Blk.reset⟩ = .next t := ⟨_, rfl⟩

theorem witness_OnlyPrivateJtagStops : State.reset.blk.sec.unlocked = false ∧
    ({ Blk.reset with sec := { unlocked := true } } : Blk).sec.unlocked = true := by decide

theorem witness_ResetState : Reg.fabCtrl ∉ [Reg.pkgIdent, Reg.pkgCap, Reg.pkgStartCtrl, Reg.aonLost, Reg.memSeal, Reg.secStatus] := by decide

theorem witness_EveryStepPostsItsEvents : State.reset.Posted ∧ ∃ t, step State.reset = .next t := ⟨rfl, _, rfl⟩

theorem witness_PostingFrame : postReg Reg.fabCtrl = false ∧ postReg (Reg.pkgFlog 4095 + 8) = false ∧ postReg (Reg.eccCnt 0 - 8) = false := by
  decide +kernel

theorem witness_MemoryCommandsKeepForm : State.reset.blk.MemOk ∧ (∃ t, exec (.memoryLineRead 0 1 []) State.reset = .next t) ∧
    (∃ t, exec .bucketLeak State.reset = .next t) ∧ Memory.wf [(5, (1 : Byte))] := ⟨by decide, ⟨_, rfl⟩, ⟨_, rfl⟩, by decide⟩

/-! ### Witnesses: issue -/

theorem witness_UndefinedEncodingFaults :
    plynax (.seqNop aMember 0) = some ⟨aMember, 0, 0, 0, true, true⟩ ∧ State.reset.blk.issuer aMember 0 0 0 = none ∧
    plynax (.moveAfn aMember 0x2080400000000000) = some ⟨aMember, 0x2080400000000000, 2, 2, false, true⟩ ∧
    plynax (.seqNop aMember 1) = some ⟨aMember, 1, 0, 0, true, false⟩ ∧ stRun.blk.issuer aMember 1 0 0 = some 0 :=
  ⟨rfl, by decide +kernel, rfl, rfl, by decide +kernel⟩

theorem witness_FailedInstructionFaultsOrWaits : blkRun.issuer aMember 0x0100000000000000 0 4 = some 0 ∧
    (∃ t, seqFence 0x0100000000000000 (blkRun.cx 0 0x0100000000000000) (blkRun.begun 0 0x0100000000000000) = .error 0x0A t) ∧
    (∃ t, (throw notYet : Act Unit) (blkRun.begun 0 0x0100000000000000) = .error notYet t) ∧ (0x0A : Nat) ≠ notYet :=
  ⟨by decide +kernel, ⟨_, rfl⟩, ⟨_, rfl⟩, by decide⟩

/-- Two members of one gang, of which the first has faulted at fetch index 5. -/
def blkGang : Blk := { blkRun with slots := [(0, { slotRun with flt := some ⟨2, 5, 0, 0, 0, 0, 0⟩ }), (2, slotRun)] }

theorem witness_FaultStopsGang : (blkGang.slot 2).flt = none ∧ (blkGang.slot 0).flt = some ⟨2, 5, 0, 0, 0, 0, 0⟩ ∧ (5 : BitVec 32) ≤ 5 ∧
    (∃ s, (2, s) ∈ (blkGang.raise 0 2 5 0 0).slots ∧ s.bound = true ∧ s.ctx = (blkGang.slot 0).ctx) := by
  refine ⟨by decide +kernel, by decide +kernel, by decide, ((blkGang.raise 0 2 5 0 0).slot 2), by decide +kernel⟩

theorem witness_SeqInstructions :
    (blkRun.issuer aMember 0 0 0 = some 0 ∧ wordOk 0 false (0, 0) = true ∧ rsvdOk 0 [] = true) ∧
    (blkRun.issuer aMember 0x0040000000000000 0 1 = some 0 ∧ wordOk 0x0040000000000000 false (0, 0) = true ∧ rsvdOk 0x0040000000000000 [] = true) ∧
    (let w : Word := 0x00C00000FFFF0001
     blkRun.issuer aMember w 0 3 = some 0 ∧ wordOk w false (0, 0) = true ∧ rsvdOk w [(31, 16), (15, 0)] = true) ∧
    (let w : Word := 0x010000000000003F
     blkRun.issuer aMember w 0 4 = some 0 ∧ wordOk w false (0, 0) = true ∧ rsvdOk w [(5, 0)] = true ∧ bits w 5 0 ≠ 0) ∧
    (let w : Word := 0x0160000000000000
     blkRun.issuer aMember w 0 5 = some 0 ∧ wordOk w true (0, 0) = true ∧ rsvdOk w [] = true) ∧
    (let w : Word := 0x01800F80FFFFFFFF
     blkRun.issuer aMember w 0 6 = some 0 ∧ scalarOk w = true ∧ scalarFn blkRun 0 w 0 = some (-1)) ∧
    (let w : Word := 0x01C0E10000000000
     blkRun.issuer aMember w 0 7 = some 0 ∧ wordOk w false (0, 0) = true ∧ rsvdOk w [(47, 45), (44, 44), (40, 32)] = true ∧
      bits w 47 45 ≠ 0 ∧ (bit w 44 = true → bits w 40 37 = 0)) := by decide +kernel

theorem witness_LoopCompletes :
    (let w : Word := 0x0080E00000100001
     blkRun.issuer aMember w 0 2 = some 0 ∧ wordOk w false (0, 0) = true ∧ rsvdOk w [(47, 45), (44, 44), (43, 20), (15, 0)] = true ∧
      (bit w 44 = true → bits w 43 25 = 0) ∧ bits w 15 0 ≠ 0 ∧ 1 = bits w 43 20 ∧ (((blkRun.slot 0).lc.toList[bits w 47 45]?).getD {}).active = false ∧
      (blkRun.slot 0).nestOk ((blkRun.slot 0).issuePc + 1) (bits w 15 0) = true) ∧
    (let w : Word := 0x0080100000000001
     blkRun.issuer aMember w 0 2 = some 0 ∧ wordOk w false (0, 0) = true ∧ rsvdOk w [(47, 45), (44, 44), (43, 20), (15, 0)] = true ∧
      (bit w 44 = true → bits w 43 25 = 0) ∧ bits w 15 0 ≠ 0 ∧ 0 = (blkRun.sreg 0 (bits w 24 20)).toNat) := by decide +kernel

/-- A slot whose loop counter 7 is active at index 3. -/
def blkLoop : Blk := { blkRun with slots := [(0, { slotRun with lc := slotRun.lc.setIfInBounds 7 { active := true, count := 5, idx := 3 } })] }

theorem witness_ScalarFunctions :
    ((List.range 9).all (fun n => decide (bits (word (n <<< 44)) 47 44 = n ∧ bits (word (n <<< 44)) 31 5 = 0 ∧ bits (word (n <<< 44)) 31 6 = 0))) = true ∧
    bits 0x900000000007 47 44 = 9 ∧ bits 0x900000000007 38 34 = 0 ∧ bits 0x900000000007 31 3 = 0 ∧
    (∃ l, (blkLoop.slot 0).lc.toList[bits 0x900000000007 2 0]? = some l ∧ l.active = true) ∧ 10 ≤ bits 0xF00000000000 47 44 := by
  refine ⟨by decide +kernel, by decide +kernel, by decide +kernel, by decide +kernel, ⟨{ active := true, count := 5, idx := 3 }, rfl, rfl⟩, by decide +kernel⟩

/-- The package with sync objects 0 and 16383 assigned to partition 0. -/
def blkSync : Blk := { blkRun with regs := sput (sput blkRun.regs (Reg.coreSyncOwn 0 0) 0x8000000000000000) (Reg.coreSyncOwn 1 8191) 0x8000000000000000 }

theorem witness_SyncInstructions : ([(0x1000000000000001, 0), (0x1040000000000001, 1), (0x1080000000000001, 2), (0x10C0000000000001, 3),
    (0x1140000000000001, 5), (0x1180000000000001, 6)] : List (Word × Nat)).all (fun p => syncWordOk p.1 &&
      decide (blkSync.syncOperands 0 p.1 0 = (0, 1)) && decide (blkSync.syncOwner 0 = some (blkSync.slot 0).part.toNat) &&
      decide (blkSync.issuer aMember p.1 1 p.2 = some 0)) = true ∧
    (let w : Word := 0x10203FFF00000000
     syncWordOk w = true ∧ blkSync.syncOperands 0 w 7 = (16383, 7) ∧ blkSync.syncOwner 16383 = some 0) := by decide +kernel

/-- A pending signal that nothing keeps back; a member that waits for object 0. -/
def blkSig : Blk := { blkSync with
  sigs := [⟨0, 1, false, 0, none, []⟩], slots := [(0, { slotRun with wait := .sync 0 1, waitLimit := 1 })] }

theorem witness_SyncObjectsChange :
    (blkSig.sigs[0]? = some ⟨0, 1, false, 0, none, []⟩ ∧ blkSig.sigDue 0 ⟨0, 1, false, 0, none, []⟩ = true ∧ blkSig.ownsSync 0 0 = true) ∧
    (blkSync.takes .host (Reg.coreSyncOwn ((16383 : BitVec 14).toNat / 8192) ((16383 : BitVec 14).toNat % 8192)) = true ∧
      blkSync.slots.all (fun ks => match ks.2.wait with | .sync o _ => decide (o ≠ (16383 : BitVec 14).toNat) | _ => true) = true) ∧
    (blkSig.memberKey aMember = some 0 ∧ (blkSig.slot 0).wait = .sync 0 1 ∧ (blkSig.core (0 / 2)).moving = none ∧ (blkSig.slot 0).st = .run ∧
      (blkSig.slot 0).waitLimit ≠ 0 ∧ syncOk (blkSig.syncVal 0) 1 = false) := by decide +kernel

theorem witness_SyncWaitOrder : (∃ t, exec (.syncWait aMember 0x1000000000000001 0) ⟨[], blkSync⟩ = .next t) ∧ (blkSig.slots.map (·.1)).Nodup ∧
    (blkSig.slot 0).wait = .sync 0 1 ∧ syncOk 1 1 = true ∧ syncOk 0x8000000000000000 1 = true :=
  ⟨⟨_, rfl⟩, by decide, by decide +kernel, by decide, by decide⟩

/-! ### Witnesses: registers, the host die -/

theorem witness_AccessCodesOfPlainRegisters : (∃ d, d ∈ regTable ∧ d.rw &&& d.w1c = 0 ∧ 63 < 64) := ⟨_, List.mem_cons_self, by decide +kernel, by decide⟩

/-- The package in Doze. -/
def blkDoze : Blk := { blkMem with regs := sput memRegs Reg.aonPwrSts 0x4000000000000000 }

theorem witness_RegisterWriteCompletes :
    ([Reg.memTop 0, Reg.aonAlarm].all (fun off => decide (off % 8 = 0) && decide (off < 0x9000000) && plainReg off && blkMem.takes .host off &&
      (regDesc off).isSome)) = true ∧
    (0x8FFFFF8 % 8 = 0 ∧ 0x8FFFFF8 < 0x9000000 ∧ plainReg 0x8FFFFF8 = true ∧ blkMem.takes .host 0x8FFFFF8 = true ∧ regDesc 0x8FFFFF8 = none) ∧
    ((Reg.memTop 0 + 4) % 4 = 0 ∧ Reg.memTop 0 + 4 < 0x9000000 ∧ blkMem.takes .control (Reg.memTop 0 + 4) = true) ∧
    (regSizeOk 0 2 = false ∧ regSizeOk 0x9000000 8 = false ∧ regSizeOk 4 8 = false) ∧
    (regSizeOk (Reg.colJob 0) 8 = true ∧ blkDoze.takes .host (Reg.colJob 0) = false) := by decide +kernel

theorem witness_ChangeLogRecordsSettings :
    ((blkMem.reg Reg.pkgNumber ^^^ 0x7000) &&& ((regDesc Reg.pkgNumber).map (·.ret)).getD 0 = 0) ∧
    ((blkMem.reg Reg.pkgNumber ^^^ 0x7) &&& ((regDesc Reg.pkgNumber).map (·.ret)).getD 0 ≠ 0 ∧ (((0 : Nat), (0 : Nat)).1 ≠ 1)) ∧
    bit (blkMem.reg Reg.secPolicy) 0 = true ∧
    bit (({ blkMem with regs := sput memRegs Reg.secPolicy 0 } : Blk).reg Reg.secPolicy) 0 = false ∧ Reg.pkgNumber ≠ Reg.aonAlarm := by decide +kernel

/-- The package with a queue pair open. -/
def blkQp : Blk := { blkMem with xpt := { qps := [(1, some {})] } }

theorem witness_PackageNumberWrite : blkMem.anyQp = false ∧ blkQp.anyQp = true ∧ bits (blkQp.reg Reg.pkgNumber) 11 0 ≠ bits ((1 : Word) &&& 0x80000FFF) 11 0 ∧
    bit (blkMem.reg Reg.secPolicy) 0 = true ∧ blkQp.policy .host 1 = true := by decide +kernel

theorem witness_HostAccessCompletes : blkMem.hartRuns 31 = true ∧ blkMem.dozing = false ∧ blkMem.MemOk ∧ blkMem.Clean ∧ blkMem.BuffersOk ∧
    blkMem.mem.poisonLines = [] ∧
    ((blkMem.resolve 0x40000000).2 = .nothing ∧ (blkMem.resolve 0x0F0000000000).2 = .regs ∧ (blkMem.resolve 0x0F0008FFFFFC).2 = .regs ∧
      regSizeOk (0x0F0008FFFFFC - 0x0F0000000000) 4 = true ∧ regSizeOk (0x0F0000000000 - 0x0F0000000000) 1 = false) ∧
    ((blkMem.resolve 0x040000000000).2 = .hbm 0 ∧ ({ blkMem with regs := sput memRegs Reg.hceLinkSts (1 <<< 56) } : Blk).linkDown 0 = true) ∧
    ([(0, 8), (0x3FFFFFF8, 8), (0x3FFFFFFC, 4)] : List (Nat × Nat)).all (fun p => decide (blkMem.resolve p.1 = (p.1, .ddr)) &&
      decide ((blkMem.resolve (p.1 + p.2 - 1)).2 = .ddr) && decide (p.1 % 8192 + p.2 ≤ 8192) && decide (p.1 % p.2 = 0) &&
      !blkMem.unwritten (p.1 / 8192) && !(blkMem.fmeta (p.1 / 8192)).hdr.poison) = true :=
  ⟨by decide, by decide +kernel, by decide, blkMem_clean, blkMem_buffers, rfl, by decide +kernel, by decide +kernel, by decide +kernel⟩

theorem witness_PcieDeviceRequests : (blkMem.resolve 0x040000000000).2 ≠ .ddr ∧ (blkMem.resolve 0x3FFFFFFE).2 = .ddr ∧
    (blkMem.resolve (0x3FFFFFFE + [(1 : Byte), 2].length - 1)).2 = .ddr ∧ 0x3FFFFFFE % 8192 + [(1 : Byte), 2].length ≤ 8192 ∧
    blkMem.MemOk ∧ blkMem.Clean ∧ blkMem.BuffersOk :=
  ⟨by decide +kernel, by decide +kernel, by decide +kernel, by decide, by decide, blkMem_clean, blkMem_buffers⟩

/-- The package with its host-die modules in their groups. -/
def blkUcie : Blk := { blkMem with regs := sput memRegs Reg.hceLinkSts 0x00FF000000000000 }

theorem witness_UcieRetraining : (blkUcie.ucieUp 0 = true ∧ blkUcie.ucieUp 11 = true ∧ blkUcie.host.retrain.contains 11 = false ∧ ucieDie 11 = some 1) ∧
    ({ blkUcie with host := { retrain := [11] } } : Blk).host.retrain.contains 11 = true ∧
    bits (setBits (({ blkUcie with host := { retrain := [11] } } : Blk).reg Reg.hceLinkSts) (ucieUpBit 11) (ucieUpBit 11) 0) (51 + 4 * 1) (48 + 4 * 1) ≠ 0 := by
  decide +kernel

theorem witness_NotifyEntryWrite : (regDesc (Reg.hceNotifyCtl (0 : BitVec 8).toNat)).isSome = true ∧ (regDesc (Reg.hceNotifyCtl (255 : BitVec 8).toNat)).isSome = true := by
  decide +kernel

theorem witness_DrainAndRestart : blkMem.hold = false ∧ blkMem.mem.hostDirty = [] ∧
    ({ blkMem with regs := sput memRegs Reg.hceRestart 0x300000000 } : Blk).hold = true ∧
    ({ blkMem with host := { drain := some false } } : Blk).host.drain = some false := by decide +kernel

/-- A copy at the head of outbound engine 4 that writes host memory behind PCIe, and one that writes DDR5. -/
def pcieCopy (dst : Nat) : CopyCmd := { comp := ⟨1, 0, 1, 0, 0, 0, 0, 0, none, none, none, false⟩, kind := .copyi [1], dst := dst, dir := 2 }

theorem witness_PcieLinkDown : (0 : Fin 4).val < 2 ^ min (blkMem.fld Reg.hcePcieCfg 7 6) 2 ∧ blkMem.engines = [] ∧
    (3 : Fin 4).val < 2 ^ min (({ blkMem with regs := sput memRegs Reg.hcePcieCfg 0x80 } : Blk).fld Reg.hcePcieCfg 7 6) 2 ∧
    (pcieCopy 0x40000000).onPort { blkMem with host := { pcieDown := [0] } } 0 = false ∧
    (pcieCopy 0xC0000000).onPort { blkMem with host := { pcieDown := [0] } } 0 = true := by
  refine ⟨by decide +kernel, rfl, by decide +kernel, by decide +kernel, ?_⟩
  have h : translate 0 0xC0000000 .wr { blkMem with host := { pcieDown := [0] } } = .ok 0x100000000000 { blkMem with host := { pcieDown := [0] } } :=
    of_okIs (by decide +kernel)
  have h2 : min (({ blkMem with host := { pcieDown := [0] } } : Blk).fld Reg.hcePcieCfg 7 6) 2 = 0 := by decide +kernel
  have h3 : (({ blkMem with host := { pcieDown := [0] } } : Blk).resolve 0x100000000000).2 = .pcie := by decide +kernel
  simp [CopyCmd.onPort, CopyCmd.ranges, pcieCopy, h, h3, Blk.portOf, h2, Nat.mod_one]

/-! ### Witnesses: streams -/

/-- The descriptor of context 1 in frame 0 of DDR5: a gang of logical cores 0 and 15 of die 0, a ring of 512 words at VA 0x40002000. -/
def ctxCells : List Host.Cell := [(0x100, 0x01), (0x101, 0x80), (0x107, 0x40), (0x108, 0x09), (0x109, 0x20), (0x10B, 0x40)]

/-- The package with that descriptor and no slot bound; physical core 19 runs as logical core 15. -/
def blkCtx : Blk := { blkMem with
  regs := sput memRegs (Reg.pkgSmap 1) 0x9300000000000000
  mem := { cells := ctxCells ++ tableCells, fmeta := [(0, { gen := 1 }), (1, { gen := 1 })] }
  slots := [] }

/-- The foreground slot of physical core 0 as a stream's only member, in a state and with a fault that the caller gives. -/
def slotCtx (st : SlotSt) (stt : Nat) (flt : Option FaultInfo) : Slot :=
  { slotRun with st := st, stt := stt, flt := flt, ringBase := 0x40002000, ringLog := 9, tail := 1, fin := some (16383, 5) }
def blkStream (st : SlotSt) (stt : Nat) (flt : Option FaultInfo) : Blk := { blkCtx with
  regs := sput blkCtx.regs (Reg.coreSyncOwn 1 8191) 0x8000000000000000
  slots := [(0, slotCtx st stt flt)] }

theorem witness_BindCompletes : blkCtx.takes .host (Reg.coreCtxCmd 0) = true ∧ bit (blkCtx.reg (Reg.coreCtxSts 0)) 63 = false ∧
    blkCtx.members 1 = [] ∧ blkCtx.partOn 0 = true ∧ blkCtx.dieOut 0 = false ∧ blkCtx.pinnedCtxs 0 < 4095 ∧
    (∃ ws b, readWords (blkCtx.ctxAddr 1) 32 blkCtx = .ok ws b ∧
      (descOk ws && decide (b.xpt.cache = [[], []] ∧ bits (nth ws 0 0) 63 62 = 1 ∧ bits (nth ws 0 0) 61 58 = 0 ∧ bits (nth ws 0 0) 40 40 = 0 ∧
        bits (nth ws 0 0) 15 0 = 0x8001 ∧ bits (nth ws 0 0) 57 48 = 0 ∧ bits (nth ws 0 1) 5 0 = 9 ∧ bit (nth ws 0 4) 63 = false)) = true) ∧
    bitsOf 0x8001 16 = [0, 15] ∧ blkCtx.physOf 0 0 = some 0 ∧ blkCtx.physOf 0 15 = some 19 ∧ blkCtx.start.noBind = [] ∧
    ({ blkCtx with regs := sput blkCtx.regs (Reg.coreBfCtrl 0 0) 0x10000 } : Blk).bfEn 0 0 = true :=
  ⟨by decide +kernel, by decide +kernel, by decide +kernel, by decide +kernel, by decide +kernel, by decide +kernel,
    ex_of_okIs (by decide +kernel), by decide +kernel, by decide +kernel, by decide +kernel, rfl, by decide +kernel⟩

theorem witness_AbortAndUnbind :
    ((blkStream .run 1 none).takes .host (Reg.coreCtxCmd 0) = true ∧ bit ((blkStream .run 1 none).reg (Reg.coreCtxSts 0)) 63 = false) ∧
    (∃ w b, ctxWord 1 0 (blkStream .run 1 none) = .ok w b ∧ decide (bits w 63 62 = 1 ∧ bits w 40 40 = 0 ∧ b.slots = (blkStream .run 1 none).slots) = true) ∧
    ((blkStream .run 1 none).members 1).head? = some 0 ∧ ((blkStream .run 1 none).slot 0).stt = 1 ∧
    (∃ w b, ctxWord 1 0 (blkStream .ended 2 none) = .ok w b ∧ decide (bits w 63 62 = 1 ∧ bits w 40 40 = 0 ∧ b.slots = (blkStream .ended 2 none).slots) = true) ∧
    ((blkStream .ended 2 none).members 1).head? = some 0 ∧ ((blkStream .ended 2 none).slot 0).stt = 2 ∧
    (∃ w b, ctxWord 1 0 blkCtx = .ok w b ∧ decide (bits w 63 62 = 1 ∧ bits w 40 40 = 0 ∧ bits w 61 58 = 0) = true) ∧
    (blkCtx.members 1).head? = none :=
  ⟨by decide +kernel, ex_of_okIs (by decide +kernel), by decide +kernel, by decide +kernel, ex_of_okIs (by decide +kernel), by decide +kernel,
    by decide +kernel, ex_of_okIs (by decide +kernel), by decide +kernel⟩

/-- A fault of a stream's member. -/
def aFault : FaultInfo := ⟨2, 5, 1, 3, 0, 0, 9⟩

theorem witness_StreamsEnd :
    (([blkStream .stop 1 none, blkStream .ended 1 none, blkStream .stop 1 (some aFault)] : List Blk).all (fun b => decide (b.members 1 = [0] ∧
      (b.slot 0).stt = 1 ∧ b.outst = [] ∧ b.sigs = [] ∧ b.col = {} ∧ b.xpt = {} ∧ b.engines = [] ∧ (b.slot 0).wait = .none ∧
      (b.slots.map (·.1)).Nodup))) = true ∧
    (({ blkStream .stop 1 none with ctxCmds := [(0, 1, false)] } : Blk).ctxCmds = [(keyDie 0, 1, false)] ∧ ((blkStream .stop 1 none).slot 0).st = .stop) ∧
    (((blkStream .ended 1 none).slot 0).st = .ended ∧ ((blkStream .ended 1 none).slot 0).fin = some (16383, 5) ∧
      (blkStream .ended 1 none).syncOwner 16383 = some ((blkStream .ended 1 none).slot 0).part.toNat) ∧
    (((blkStream .stop 1 (some aFault)).slot 0).flt = some aFault ∧ bit ((blkStream .stop 1 (some aFault)).reg (Reg.coreFault (keyDie 0) (keyPhys 0))) 63 = false) := by
  decide +kernel

theorem witness_DoorbellPages :
    (let b := blkStream .run 1 none
     b.members (bits 0x20000000001 15 0) = [0] ∧ (b.slot 0).stt = 1 ∧ (b.slot 0).part = 0 ∧ b.partOn 0 = true ∧
      (bits 0x20000000001 63 32 + 2 ^ 32 - (b.slot 0).headWb.toNat) % 2 ^ 32 = 2 ^ (b.slot 0).ringLog) ∧
    (blkStream .run 1 none).members (bits 0xFFFF 15 0) = [] ∧
    (blkStream .run 1 none).ownsSync 0 (bits 0x3FFF00000005 45 32) = true ∧ (blkStream .run 1 none).ownsSync 1023 (bits 0x3FFF00000005 45 32) = false := by
  decide +kernel

theorem witness_InstructionFetchCompletes :
    (let b := blkStream .run 1 none
     b.memberKey aMember = some 0 ∧ (b.slot 0).bound = true ∧ (b.slot 0).st = .run ∧ (b.slot 0).wait = .none ∧ (b.slot 0).latched = none ∧
      (b.core 0).fenced = false ∧ (b.core 0).moving = none ∧ b.dieOut (keyDie 0) = false ∧ (b.slot 0).lc.toList.all (fun l => !l.active) = true ∧
      (b.slot 0).fetch ≠ (b.slot 0).tail ∧ b.members (b.slot 0).ctx.toNat = [0]) ∧
    (∃ w b, fetchRing ((blkStream .run 1 none).cx 0 0) 0 ((blkStream .run 1 none).mapSlot 0 id) = .ok w b ∧
      (firstOk w && decide (wordsOf w = 1 ∧ b.slots = (blkStream .run 1 none).slots)) = true) :=
  ⟨by decide +kernel, ex_of_okIs (by decide +kernel)⟩

theorem witness_StreamFaultCompletes :
    (let b : Blk := { blkCtx with slots := [(0, { slotCtx .run 1 none with latched := some (3, [0]) })] }
     b.memberKey aMember = some 0 ∧ (b.slot 0).bound = true ∧ (b.slot 0).stt = 1 ∧ (b.slot 0).latched = some (3, [0])) ∧
    (let b := blkStream .run 1 none
     b.memberKey aMember = some 0 ∧ (b.slot 0).bound = true ∧ (b.slot 0).stt = 1 ∧ (b.slot 0).latched = none) := by decide +kernel

/-- Core 0 with both slots: a foreground that waits for object 1 (or runs) and a backfill that is ready. -/
def blkBoth (w : Wait) (fg bf : Bool) : Blk := { blkCtx with
  regs := sput blkCtx.regs (Reg.coreBfCtrl 0 0) 0x1FFFF
  slots := [(0, { slotRun with wait := w, bound := fg }), (1, { slotRun with ctx := 2 })]
  cores := [(0, { runBf := bf })] }

theorem witness_ForegroundAndBackfill :
    (blkCtx.takes .host (Reg.coreBfCtrl 1 19) = true ∧ bit 0x10000 16 = true ∧ bit (blkCtx.reg (Reg.coreBfCtrl 1 19)) 16 = false ∧
      (blkCtx.slot (slotKey 1 19 false)).bound = false ∧ (blkCtx.slot (slotKey 1 19 true)).bound = false) ∧
    bit (({ blkCtx with regs := sput blkCtx.regs (Reg.coreBfCtrl 1 19) 0x10000 } : Blk).reg (Reg.coreBfCtrl 1 19)) 16 = true ∧
    (let b := blkBoth (.sync 1 1) true false
     b.physOf 0 0 = some 0 ∧ b.moving 0 0 = false ∧ (b.core 0).runBf = false ∧ (b.slot 1).ready = true ∧ (b.slot 0).bound = true ∧
      (b.slot 0).st = .run ∧ (b.slot 0).wait.counts = true ∧ b.fld (Reg.coreBfCtrl 0 0) 15 0 ≠ 0) ∧
    (let b := blkBoth .none false false
     (b.core 0).runBf = false ∧ (b.slot 1).ready = true ∧ (b.slot 0).bound = false ∧ b.moving 0 0 = false) ∧
    (let b := blkBoth .none true true
     (b.core 0).runBf = true ∧ (b.slot 0).ready = true ∧ b.moving 0 0 = false) := by decide +kernel

/-! ### Witnesses: the arrays -/

/-- The package with an INT8 tile of zeros in frame 0 of core 0's local store (VA 0), a stationary INT8 tile, and accumulator slot 7 of array 3 live. -/
def blkMat (st : AccSt) : Blk := { blkMem with
  regs := sput memRegs (Reg.accChkCtrl 0 0) 0
  mem := { cells := tableCells, fmeta := [(0x40000000, { hdr := { fmt := 10, klog2 := 7 } })] }
  slots := [(0, { slotRun with ldsSince := true, visible := some ⟨.int8, false, [], []⟩ })]
  cores := [(0, { acc := [(31, { st := st, lo := some ⟨false, [], [], false⟩ })] })] }

theorem witness_StationaryTiles :
    (let w : Word := 0x3000AA0000000000
     (blkMat .free).issuer aMember w 3 0 = some 0 ∧ wordOk w false (0, 0) = true ∧
      rsvdOk w [(47, 44), (43, 40), (39, 37), (36, 36), (35, 35), (34, 34), (33, 32), (4, 0)] = true ∧
      (ldsFields w).map (fun x => (x.1, x.2.1)) = some (.int8, .int8) ∧ (ldsFrames .int8 .int8 0).getD 1 = 1 ∧
      (((blkMat .free).begun 0 w).sreg 0 (bits w 4 0)).toNat % 8192 = 0 ∧
      ∃ p b, rdFrame' ((blkMat .free).cx 0 w) 0 (fun _ _ _ => true) ((blkMat .free).begun 0 w) = .ok p b ∧
        (headerIs p.1.hdr .int8 && decide (p.2 = 0) && decide (b = (blkMat .free).begun 0 w) &&
          okIs (rdAddr ((blkMat .free).cx 0 w) 0 b) (fun q u => decide (u = b) && b.ldsSource ((blkMat .free).cx 0 w) q.1 q.2)) = true) ∧
    ((blkMat .free).memberKey aMember = some 0 ∧ ((blkMat .free).slot 0).ldsSince = true) ∧
    (let w : Word := 0x3040000000000000
     (blkMat .free).issuer aMember w 3 1 = some 0 ∧ wordOk w false (0, 0) = true ∧ rsvdOk w [] = true ∧
      ((blkMat .free).slot 0).underReady = true ∧ ((blkMat .free).slot 0).visible.any (·.split) = false) := by
  refine ⟨⟨by decide +kernel, by decide +kernel, by decide +kernel, by decide +kernel, by decide +kernel, by decide +kernel, ?_⟩,
    by decide +kernel, by decide +kernel⟩
  exact ex_of_okIs (by decide +kernel)

theorem witness_ActivationStream :
    let w : Word := 0x30808715000003E0
    let b := (blkMat .free).begun 0 w
    let c := (blkMat .free).cx 0 w
    (blkMat .free).issuer aMember w 3 2 = some 0 ∧ wordOk w false (0, 0) = true ∧
      rsvdOk w [(47, 44), (43, 40), (39, 37), (36, 36), (35, 35), (34, 31), (9, 5), (4, 0)] = true ∧
      Fmt.ofCode (bits w 34 31) = some .int8 ∧ Fmt.int8.group.isSome = true ∧ bits w 43 40 + bits w 39 37 = 7 ∧ bit w 35 = false ∧ bit w 36 = true ∧
      (((blkMat .free).slot 0).operand .int8).any (fun o => !o.split) = true ∧ arraysOf w = [3] ∧ b.quarterOk c 7 = true ∧
      ∃ p u, rdFrame' c 0 (fun b => b.near c) b = .ok p u ∧
        (headerIs p.1.hdr .int8 && decide (p.2 = 0 ∧ u = b) && okIs (rdAddr c 0 b) (fun q u => decide (u = b) && b.near c q.1 q.2)) = true := by
  refine ⟨by decide +kernel, by decide +kernel, by decide +kernel, by decide +kernel, by decide +kernel, by decide +kernel, by decide +kernel,
    by decide +kernel, by decide +kernel, by decide +kernel, by decide +kernel, ?_⟩
  exact ex_of_okIs (by decide +kernel)

theorem witness_AccumulatorElements : ∃ (op : Operand) (act : List (List Val)), act.length = 64 ∧ op.hi.length = 64 ∧ op.split = false ∧ (63 : Nat) < 64 :=
  ⟨⟨List.replicate 64 [], [], [], [], false⟩, List.replicate 64 [], rfl, rfl, rfl, by decide⟩

theorem witness_AccumulatorSlots :
    (([(0, .live, 0x3100800000000080), (1, .live, 0x3100840000000080), (2, .persistent, 0x3100880000000080), (3, .lost, 0x3100840000000080),
      (4, .lost, 0x3100880000000080)] : List (Nat × AccSt × Word)).all (fun x => let b := blkMat x.2.1; let w := x.2.2
        decide (b.issuer aMember w 3 4 = some 0) && wordOk w false (0, 0) && rsvdOk w [(47, 44), (43, 42), (7, 0)] &&
          decide (arraysOf w = [3] ∧ bitsOf (bits w 7 0) 8 = [7] ∧ (b.begun 0 w).quarterOk (b.cx 0 w) 7 = true ∧
            ((b.begun 0 w).accSlot 0 3 7).st = x.2.1 ∧ (x.1 < 3 → bits w 43 42 = x.1)))) = true := by decide +kernel

theorem witness_VarnishDrain :
    (let w : Word := 0x30E0070820000000
     (blkMat .live).issuer aMember w 3 3 = some 0 ∧ wordOk w true (0, 0) = true ∧ rsvdOk w [(47, 19), (9, 0)] = true ∧ rsvdExt 0 [(14, 0)] = true ∧
      (drainFields w 0).isSome = true ∧ arraysOf w = []) ∧
    (([0x30E0870820000000, 0x30E0871820000000] : List Word).all (fun w =>
      let b := (blkMat .live).begun 0 w
      let c := (blkMat .live).cx 0 w
      decide ((blkMat .live).issuer aMember w 3 3 = some 0) && wordOk w true (0, 0) && rsvdOk w [(47, 19), (9, 0)] && rsvdExt 0 [(14, 0)] &&
      (drainFields w 0).any (fun d => decide (arraysOf w = [3] ∧ d.stat = 0 ∧ d.msk = 0 ∧ d.sb = false ∧ d.fmt.k ≠ 32 ∧ b.quarterOk c (accIdx d.w16 d.acc) = true ∧
        b.fld (Reg.accChkCtrl c.die c.p) 1 0 = 0 ∧ (b.accSlot 0 3 (accIdx d.w16 d.acc)).useFault d.w16 d.acc = 0 ∧
        ((b.accSlot 0 3 (accIdx d.w16 d.acc)).tile d.w16 d.acc).isSome = true ∧ drainDst c b d 3 % 8192 = 0) &&
        okIs (wrAddr c (drainDst c b d 3) 8192 b) (fun q u => decide (u = b) && b.near c q.1 q.2)) &&
      !bit (b.reg Reg.cntCtrl) 61)) = true := by
  refine ⟨by decide +kernel, by decide +kernel⟩

/-! ### Witnesses: the vector engine -/

/-- A VEC word with a format and a destination; its sources are T0. -/
def vecW (op f d : Nat) : Word := word (4 <<< 60 ||| op <<< 54 ||| f <<< 44 ||| d <<< 29)

theorem reg_tileDst (b : Blk) (c : Cx) (a : Nat) (f : Fmt) (h : f.inReg = true) : b.tileDst c 7 0 a f := ⟨by decide, h⟩

theorem mem_tileDst : ∃ a, (blkMem.begun 0 (vecW 0 0 0x20)).tileDst (blkMem.cx 0 (vecW 0 0 0x20)) 0x20 0 a .fp32 := by
  obtain ⟨q, u, h, h'⟩ := ex_of_okIs (a := wrAddr (blkMem.cx 0 (vecW 0 0 0x20)) 0 8192 (blkMem.begun 0 (vecW 0 0 0x20)))
    (p := fun q u => decide (u = blkMem.begun 0 (vecW 0 0 0x20)) && (blkMem.begun 0 (vecW 0 0 0x20)).near (blkMem.cx 0 (vecW 0 0 0x20)) q.1 q.2)
    (by decide +kernel)
  simp only [Bool.and_eq_true, decide_eq_true_eq] at h'
  refine ⟨q.1, by decide +kernel, q.2, ?_, h'.2⟩
  have e : ((blkMem.begun 0 (vecW 0 0 0x20)).sreg (blkMem.cx 0 (vecW 0 0 0x20)).key 0).toNat + 0 * 8192 = 0 := by decide +kernel
  rw [e, h, h'.1]

theorem witness_VecElementwise : ([.vecAdd aMember (vecW 0 0 7) 0, .vecSub aMember (vecW 1 13 7) 0, .vecMul aMember (vecW 2 1 7) 0,
    .vecFma aMember (vecW 3 2 7) 0, .vecMin aMember (vecW 4 3 7) 0, .vecMax aMember (vecW 5 4 7) 0, .vecAbs aMember (vecW 6 0 7) 0,
    .vecNeg aMember (vecW 7 0 7) 0, .vecRcp aMember (vecW 8 0 7) 0, .vecRsq aMember (vecW 9 0 7) 0, .vecExp aMember (vecW 10 0 7) 0,
    .vecLog aMember (vecW 11 0 7) 0, .vecTanh aMember (vecW 12 0 7) 0, .vecSel aMember (vecW 13 0 7) 0] : List Instr).all (fun i =>
      (elementwise i).any (fun e => (vecFields e.w e.x).any (fun v =>
        let b := blkMem.begun 0 e.w
        let c := blkMem.cx 0 e.w
        decide (blkMem.issuer e.m e.w 4 e.op = some 0 ∧ bits e.w 52 48 = 0 ∧ v.fmt ∈ e.fmts ∧ bits e.w 10 0 = 0 ∧ v.d = 7 ∧ v.cv.rm = .rne) &&
          v.fmt.inReg && [v.a, v.b, v.c].all (fun sp => decide (sp = 0)) && okIs (vecSrc c v.ext 0 0 v.fmt b) (fun _ u => decide (u = b)) &&
          okIs (vecTile c v 0 0 b) (fun _ u => decide (u = b))))) = true := by decide +kernel

theorem witness_VecCompare :
    ([vecW 14 0 7, vecW 14 0 1 ||| 0x40, vecW 14 4 7 ||| 0x680] : List Word).all (fun w => (vecFields w 0).any (fun v =>
        let b := blkMem.begun 0 w
        let c := blkMem.cx 0 w
        decide (blkMem.issuer aMember w 4 0xE = some 0 ∧ bits w 52 48 = 0 ∧ bits w 5 0 = 0 ∧ bits w 10 8 ≠ 7 ∧ v.c = 0 ∧
          v.fmt ∈ [Fmt.fp32, .int32, .bf16, .fp16, .e4m3, .e5m2] ∧ 1 ≤ v.d ∧ v.d ≤ 7 ∧ bits w 7 6 ≠ 3) &&
          okIs (vecSrc c v.ext v.a 0 v.fmt b) (fun _ u => decide (u = b)) && okIs (vecSrc c v.ext v.b 0 v.fmt b) (fun _ u => decide (u = b)))) = true ∧
    Val.zero ≠ .nan := by decide +kernel

theorem witness_MaskOperations :
    (([0, 1, 2, 3, 4] : List Nat).all (fun fn => let w := vecW 18 0 7 ||| word (fn <<< 8) ||| (if fn = 4 then 0x3800000 else 0x38E0000)
      decide (blkMem.issuer aMember w 4 0x12 = some 0) && wordOk w false (0, 0) && decide (bits w 47 44 = 0 ∧ bits w 43 41 ≠ 7 ∧ bits w 7 0 = 0 ∧
        bits w 16 11 = 0 ∧ bits w 34 29 = 7 ∧ bits w 28 23 = 7 ∧ bits w 22 17 = (if fn = 4 then 0 else 7) ∧ bits w 10 8 = fn))) = true ∧
    (let w := vecW 18 0 1 ||| 0x500; blkMem.issuer aMember w 4 0x12 = some 0 ∧ 4 < bits w 10 8) ∧
    (let w := vecW 18 0 0; blkMem.issuer aMember w 4 0x12 = some 0 ∧ bits w 34 29 = 0) ∧
    (let w := vecW 18 0 8; blkMem.issuer aMember w 4 0x12 = some 0 ∧ 7 < bits w 34 29) ∧
    (let w := vecW 18 0 1 ||| 0x4000000; blkMem.issuer aMember w 4 0x12 = some 0 ∧ 7 < bits w 28 23) ∧
    (let w := vecW 18 0 1 ||| 0x100000; blkMem.issuer aMember w 4 0x12 = some 0 ∧ 7 < bits w 22 17) ∧
    (let w := vecW 18 0 1 ||| 0x20400; blkMem.issuer aMember w 4 0x12 = some 0 ∧ bits w 10 8 = 4 ∧ bits w 22 17 ≠ 0) ∧
    (let w := vecW 18 0 1 ||| 0x800; blkMem.issuer aMember w 4 0x12 = some 0 ∧ bits w 16 11 ≠ 0) := by decide +kernel

theorem witness_IntegerAccumulation : ∃ (op : Operand) (act : List (List Val)) (prev : AccTile), act.length = 64 ∧ op.hi.length = 64 ∧ prev.sat = true :=
  ⟨⟨List.replicate 64 [], [], [], [], false⟩, List.replicate 64 [], ⟨true, [], [], true⟩, rfl, rfl, rfl⟩

/-- `u 0` is the package before the instruction and a run of one tile has one equation for `u 1`. -/
theorem witness_VecConversions : bit (blkMem.reg Reg.cntCtrl) 61 = false ∧
    (let w : Word := 0x43C01000E0000000
     let b := blkMem.begun 0 w
     let c := blkMem.cx 0 w
     (vecFields w 0).any (fun v => decide (blkMem.issuer aMember w 4 0xF = some 0 ∧ bits w 52 48 = 0 ∧ Fmt.ofCode (bits w 10 7) = some .fp32 ∧
       bits w 5 0 = 0 ∧ v.b = 0 ∧ v.c = 0 ∧ v.d = 7 ∧ v.fmt = .bf16 ∧ runCounts .fp32 .bf16 = (2, 1)) &&
       okIs (vecSrc c v.ext v.a 0 .fp32 b) (fun _ u => decide (u = b)) && okIs (vecSrc c v.ext v.a 1 .fp32 b) (fun _ u => decide (u = b)) &&
       okIs (vecTile c v 0 0 b) (fun _ u => decide (u = b))) = true) ∧
    (let w : Word := 0x43C0500400000180
     let b := blkMem.begun 0 w
     let c := blkMem.cx 0 w
     (vecFields w 0).any (fun v => decide (blkMem.issuer aMember w 4 0xF = some 0 ∧ bits w 52 48 = 0 ∧ Fmt.ofCode (bits w 10 7) = some .e4m3 ∧
       bits w 5 0 = 0 ∧ v.b = 0 ∧ v.c = 0 ∧ Spec.of v.d = .mem 0 ∧ v.fmt = .mx8e4m3 ∧ runCounts .e4m3 .mx8e4m3 = (1, 1) ∧ v.mz = false ∧
       maskedOff ((blkMem.slot 0).mask v.mkf) v.mrow v.fmt.k = false ∧ (b.sreg 0 (v.d - 0x20)).toNat % 8192 = 0) &&
       okIs (vecSrc c v.ext v.a 0 .e4m3 b) (fun _ u => decide (u = b)) && okIs (vecTile c v 0 0 b) (fun _ u => decide (u = b)) &&
       okIs (wrAddr c 0 8192 b) (fun q u => decide (u = b) && b.near c q.1 q.2)) = true) ∧
    (([0x44000000F0000000, 0x44000000F0000400] : List Word).all (fun w => (vecFields w 0).any (fun v =>
       let b := blkMem.begun 0 w
       let c := blkMem.cx 0 w
       decide (blkMem.issuer aMember w 4 0x10 = some 0 ∧ bits w 52 48 = 0 ∧ bit w 53 = false ∧ bits w 9 0 = 0 ∧ v.b = 0 ∧ v.c = 0 ∧ v.fmt = .fp32 ∧ v.d = 7) &&
       okIs (vecVector c v.a (if bit w 10 then v.fmt.k else 64) b) (fun _ u => decide (u = b)) && okIs (vecTile c v 0 0 b) (fun _ u => decide (u = b)))) = true) ∧
    (([(0x44400000E0400000, 0), (0x44600000E0410280, 0), (0x44600000E0410500, 0x100000000)] : List (Word × Word)).all (fun wx => (vecFields wx.1 wx.2).any (fun v =>
       let w := wx.1
       let b := blkMem.begun 0 w
       let c := blkMem.cx 0 w
       decide (blkMem.issuer aMember w 4 0x11 = some 0 ∧ bits w 52 48 = 0 ∧ bits w 10 9 ≠ 3 ∧ bits w 8 7 ≠ 3 ∧ bits w 6 0 = 0 ∧
         (bit w 53 = true ↔ bits w 10 9 ≠ 0) ∧ v.mkf = 0 ∧ v.mrow = false ∧ v.mz = false ∧ (Spec.of v.b).isMem = true ∧ (bits w 8 7 = 0 → v.c = 0) ∧
         (bits w 8 7 ≠ 0 → (Spec.of v.c).isMem = true) ∧ (bits w 10 9 = 2 → bits wx.2 63 32 ≠ 0) ∧ (bits w 10 9 = 1 → bits wx.2 63 32 = 0) ∧
         v.fmt = .fp32 ∧ v.d = 7 ∧ runCounts .fp32 .fp32 = (1, 1) ∧ (b.sreg 0 (v.c - 0x20)).toNat % 512 = 0) &&
       okIs (normFmt c v.a b) (fun f u => decide (f = .fp32 ∧ u = b)) && okIs (vecSrc c none v.a 0 .fp32 b) (fun _ u => decide (u = b)) &&
       okIs (vecVector c v.b (if bits w 10 9 = 2 then 64 else if bits w 10 9 = 0 then 128 else 192) b) (fun _ u => decide (u = b)) &&
       okIs (rdBytes c 0 512 (fun b => b.near c) b) (fun _ u => decide (u = b)) && okIs (vecTile c v 0 0 b) (fun _ u => decide (u = b)))) = true) := by
  refine ⟨by decide +kernel, by decide +kernel, by decide +kernel, by decide +kernel, by decide +kernel⟩

/-! ### Witnesses: reduction -/

/-- A slot with S1 = 0x4000 and a landing in its last entry; the package with an FP32 tile of zeros in frame 0 of core 0's local store. -/
def aLanding (st : LandSt) (ltag : BitVec 16) : Landing :=
  { st := st, frames := [0x40000000], fmt := .fp32, ltag := ltag, expect := 2, recPas := [0x080000004000, 0x080000004008, 0x080000004010], obj := 16383, value := 1, bits := [0] }
def blkRed (l : Landing) : Blk := { blkMem with
  regs := sput memRegs (Reg.coreSyncOwn 1 8191) 0x8000000000000000
  mem := { cells := tableCells, fmeta := [(0x40000000, { hdr := { klog2 := 5 } })] }
  slots := [(0, { slotRun with s := slotRun.s.setIfInBounds 1 0x4000, lands := slotRun.lands.setIfInBounds 7 l })] }

/-- The results vectors of a reduction with zeros before it, written one after another. -/
def rdcChain (b : Blk) (c : Cx) (w : Word) (nv : Nat) (rs : List (Val × Val × Val)) : EStateM.Result Nat Blk Unit :=
  ((List.range nv).forM (fun i => wrBytes c ((b.sreg 0 (bits w 4 0)).toNat + 256 * i)
    (f32Bytes (f32Codes (rs.map (fun x => if i = 0 then x.1 else if i = 1 then x.2.1 else x.2.2)))))) b

theorem witness_Reductions :
    (([(0x5000034000000000, 64, 3), (0x5000080000000000, 1, 1), (0x5000060000000000, 32, 1)] : List (Word × Nat × Nat)).all (fun y =>
      let w := y.1
      let b := (blkRed {}).begun 0 w
      let c := (blkRed {}).cx 0 w
      decide ((blkRed {}).issuer aMember w 5 0 = some 0) && wordOk w false (0, 0) &&
        rsvdOk w [(47, 44), (43, 42), (41, 39), (38, 38), (37, 35), (34, 34), (33, 28), (4, 0)] &&
        decide (Fmt.ofCode (bits w 47 44) = some .fp32 ∧ bits w 43 42 ≠ 3 ∧ bits w 41 39 ≠ 7 ∧ (bits w 41 39 < 5 ∨ bits w 43 42 = 0) ∧
          (b.sreg 0 (bits w 4 0)).toNat % 256 = 0) &&
        okIs (wrCheck c 0 (256 * (y.2.2 - 1) + 4 * y.2.1) (fun b => b.near c) b) (fun _ u => decide (u = b)) &&
        okIs (vecSrc c none (bits w 33 28) 0 .fp32 b) (fun _ u => decide (u = b)) &&
        okIs (rdBytes c 0 (256 * (y.2.2 - 1) + 4 * y.2.1) (fun b => b.near c) b) (fun _ u => decide (u = b)) &&
        okIs (rdcChain b c w y.2.2 (List.replicate y.2.1 (.zero, .zero, .zero))) (fun _ _ => true))) = true ∧
    (([(0x5040000001C00000, .fp32, 1), (0x5040010001800000, .bf16, 2)] : List (Word × Fmt × Nat)).all (fun y =>
      let w := y.1
      let b := (blkRed {}).begun 0 w
      let c := (blkRed {}).cx 0 w
      decide ((blkRed {}).issuer aMember w 5 1 = some 0) && wordOk w false (0, 0) && rsvdOk w [(47, 44), (43, 40), (33, 28), (27, 22)] &&
        decide (Fmt.ofCode (bits w 47 44) = some .fp32 ∧ Fmt.ofCode (bits w 43 40) = some y.2.1 ∧ bits w 27 22 + y.2.2 = 8 ∧ bits w 33 28 = 0) &&
        okIs (vecSrc c none 0 0 y.2.1 b) (fun _ u => decide (u = b)) &&
        (List.range y.2.2).all (fun i => okIs (vecSrc c none (bits w 27 22) i .fp32 b) (fun _ u => decide (u = b))))) = true :=
  ⟨by decide +kernel, by decide +kernel⟩

theorem witness_ReductionFunctions : (∃ (l : List Val), .nan ∈ l) ∧ (∃ l : List Val, .zero ∈ l ∧ (reduce 1 l).1 ≠ .nan) :=
  ⟨⟨[.nan], List.mem_singleton.2 rfl⟩, ⟨[.zero], List.mem_singleton.2 rfl, by decide +kernel⟩⟩

theorem witness_LandingsOpenAndClose :
    (let w : Word := 0x50A0E10400050001
     let x : Word := 0xFFFC000000040001
     let s := blkRed {}
     let b := s.begun 0 w
     let c := s.cx 0 w
     s.issuer aMember w 5 2 = some 0 ∧ wordOk w true (0, 0) = true ∧
      rsvdOk w [(47, 45), (44, 41), (40, 40), (39, 34), (31, 16), (9, 5), (4, 0)] = true ∧ rsvdExt x [(63, 50), (49, 18), (9, 0)] = true ∧
      Fmt.ofCode (bits w 44 41) = some .fp32 ∧ bits w 31 16 ≠ 0 ∧ ((s.slot 0).land 7).st ≠ .armed ∧ bits w 47 45 = 7 ∧
      (b.sreg 0 (bits w 4 0)).toNat = 0x4000 ∧ (b.sreg 0 (bits w 9 5)).toNat = 0 ∧ b.ownsSync c.part (bits x 63 50) = true ∧ bits x 9 0 + 1 = 2 ∧
      (([(0, 0x080000000000), (8192, 0x080000002000)] : List (Nat × Nat)).all (fun p =>
        okIs (translate c.part p.1 .wr b) (fun pa u => decide (pa = p.2 ∧ u = b)) && decide ((b.resolve p.2).1 = p.2 ∧ b.pinned p.2 = false) &&
        okIs (wrAddr c p.1 8192 b) (fun q u => decide (q.1 = p.2 ∧ u = b) && b.near c q.1 q.2))) = true ∧
      okIs (wordAddrs c 0x4000 4 b) (fun _ u => decide (u = b)) = true ∧
      ((b.clusterLands c.die (c.p / 4)).all (fun y => decide (y.2.2.st ≠ .armed))) = true) ∧
    (let w : Word := 0x50C000FC60100000
     let s := blkRed {}
     let b := s.begun 0 w
     let c := s.cx 0 w
     s.issuer aMember w 5 3 = some 0 ∧ wordOk w false (0, 0) = true ∧ rsvdOk w [(47, 44), (39, 34), (33, 28), (27, 20), (14, 10), (9, 5)] = true ∧
      Fmt.ofCode (bits w 47 44) = some .fp32 ∧ bits w 27 20 + 1 = 2 ∧ (b.sreg 0 (bits w 9 5)).toNat = 0 ∧
      (([(0, 0x080000000000), (1, 0x080000002000)] : List (Nat × Nat)).all (fun p =>
        okIs (translate c.part (p.1 * 8192) .wr b) (fun pa u => decide (pa = p.2 ∧ u = b)) &&
        okIs (wrAddr c (p.1 * 8192) 8192 b) (fun q u => decide (u = b ∧ q.2.clusterOf.map (·.1) = some c.die)) &&
        okIs (pushSrc c (bits w 33 28) p.1 .fp32 b) (fun _ u => decide (u = b)))) = true) ∧
    (let w : Word := 0x5100E00000000000
     let s := blkRed (aLanding .armed 5)
     s.issuer aMember w 5 4 = some 0 ∧ wordOk w false (0, 0) = true ∧ rsvdOk w [(47, 45)] = true ∧ ((s.slot 0).land (bits w 47 45)) = aLanding .armed 5 ∧
      (s.begun 0 w).ownsSync (s.cx 0 w).part (aLanding .armed 5).obj = true ∧ (aLanding .armed 5).obj < 16384 ∧ (s.slots.map (·.1)).Nodup ∧
      ((blkRed {}).slot 0 |>.land (bits w 47 45)).st ≠ .armed) := by
  refine ⟨by decide +kernel, by decide +kernel, by decide +kernel⟩

/-- A tile that arrives from elsewhere at frame 0 of core 0's local store. -/
def anArrival (tag : BitVec 16) : Arrival := ⟨0x080000000000, tag, 63, 0, none, {}, none, none⟩

theorem witness_TileArrivals :
    (blkMem.resolve (anArrival 5).addr = (0x080000000000, .store 0 0) ∧ blkMem.heldStore (.store 0 0) = false ∧ (anArrival 5).pusher = none ∧
      Fmt.ofCode (anArrival 5).sfmt.toNat = some .fp32 ∧ (Region.store 0 0).clusterOf = some (0, 0)) ∧
    ((blkRed {}).clusterLands 0 0).all (fun y => decide (y.2.2.st = .none)) = true ∧
    ((blkRed {}).pinned 0x080000000000 = false ∧ ∃ p u, readFrameAt 0x080000000000 (.store 0 0) false (blkRed {}) = .ok p u ∧
      (headerIs p.1.hdr .fp32 && decide (u = blkRed {} ∧ Fmt.ofCode p.1.hdr.fmt.toNat = some .fp32)) = true) ∧
    (([aLanding .armed 6, aLanding .complete 5, aLanding .armed 5] : List Landing).all (fun l =>
      decide (((blkRed l).clusterLands 0 0).filter (fun y => decide (y.2.2.st ≠ .none) && y.2.2.frames.contains (0x080000000000 / 8192)) = [(0, 7, l)]))) = true ∧
    (let l := aLanding .armed 5
     l.ltag = (anArrival 5).tag ∧ l.admitted = none ∧ l.origin = none ∧ 0 = l.frames.idxOf (0x080000000000 / 8192) ∧ 0 < l.bits.length ∧
      (nth l.bits 0 0).testBit (anArrival 5).idx.toNat = false ∧
      ({ l with bits := setNth l.bits 0 (nth l.bits 0 0 ||| 2 ^ (anArrival 5).idx.toNat) } : Landing).full = false) := by
  refine ⟨by decide +kernel, by decide +kernel, ⟨by decide +kernel, ex_of_okIs (by decide +kernel)⟩, by decide +kernel, by decide +kernel⟩

/-! ### Witnesses: moves, fences and stage queues -/

theorem witness_TileMoves :
    (let w : Word := 0x2000000700000000
     let b := blkMem.begun 0 w
     let c := blkMem.cx 0 w
     blkMem.issuer aMember w 2 0 = some 0 ∧ wordOk w false (0, 0) = true ∧
      rsvdOk w [(47, 44), (43, 40), (39, 37), (36, 36), (35, 35), (34, 29), (28, 23), (22, 16)] = true ∧ Fmt.ofCode (bits w 47 44) = some .fp32 ∧
      Fmt.ofCode (bits w 43 40) = some .fp32 ∧ (RM.ofCode (bits w 39 37)).isSome = true ∧ bits w 22 16 + 1 = 1 ∧ Fmt.fp32.inReg = true ∧
      okIs (wrTileCheck c (bits w 34 29) 0 (moveWhere c (bits w 34 29) (bits w 28 23)) b) (fun _ u => decide (u = b)) = true ∧
      okIs (moveSrc c (bits w 28 23) 0 .fp32 (moveWhere c (bits w 34 29) (bits w 28 23)) b) (fun g u => decide (u = b) &&
        okIs (movePut c (bits w 34 29) 0 .fp32 g b) (fun _ _ => true)) = true) ∧
    (let w : Word := 0x20001000E0000000
     let b := blkMem.begun 0 w
     let c := blkMem.cx 0 w
     let v : VecF := ⟨.bf16, ⟨.rne, false, .floor⟩, 0, false, false, 7, 0, 0, 0, none⟩
     bit (b.reg Reg.cntCtrl) 61 = false ∧ blkMem.issuer aMember w 2 0 = some 0 ∧ wordOk w false (0, 0) = true ∧
      rsvdOk w [(47, 44), (43, 40), (39, 37), (36, 36), (35, 35), (34, 29), (28, 23), (22, 16)] = true ∧ Fmt.ofCode (bits w 47 44) = some .bf16 ∧
      Fmt.ofCode (bits w 43 40) = some .fp32 ∧ RM.ofCode (bits w 39 37) = some .rne ∧ bits w 22 16 + 1 = 1 ∧ runCounts .fp32 .bf16 = (2, 1) ∧
      okIs (wrTileCheck c 7 0 (moveWhere c 7 0) b) (fun _ u => decide (u = b)) = true ∧
      okIs (moveSrc c 0 0 .fp32 (moveWhere c 7 0) b) (fun _ u => decide (u = b)) = true ∧
      okIs (moveSrc c 0 1 .fp32 (moveWhere c 7 0) b) (fun _ u => decide (u = b)) = true ∧
      okIs (vecTile c v 0 0 b) (fun _ u => decide (u = b)) = true ∧ okIs (wrTile c 7 0 .bf16 ⟨[], [], false, 0⟩ b) (fun _ _ => true) = true) ∧
    (let w : Word := 0x20400000E0000000
     let b := blkMem.begun 0 w
     let c := blkMem.cx 0 w
     blkMem.issuer aMember w 2 1 = some 0 ∧ wordOk w false (0, 0) = true ∧ rsvdOk w [(47, 44), (34, 29), (28, 23), (9, 5), (4, 0)] = true ∧
      okIs (wrTileCheck c 7 0 (moveWhere c 7 0) b) (fun _ u => decide (u = b)) = true ∧
      okIs (gatherIdx c 0 (moveWhere c 7 0) b) (fun i u => decide (u = b ∧ i = List.replicate 64 0)) = true ∧
      okIs (rdFrame c 0 (moveWhere c 7 0) ((blkRed {}).begun 0 w)) (fun f u => headerIs f.hdr .fp32 && decide (u = (blkRed {}).begun 0 w)) = true) := by
  refine ⟨by decide +kernel, by decide +kernel, by decide +kernel⟩

/-- Object 2 of the placement table at DDR5 address 0: Fast at version 7; a member with S1 = 2 and S2 = 8 that waits as the caller says. -/
def blkObj (v : Wait) (rs : List Redirect) : Blk := { blkMem with
  regs := sput memRegs Reg.memPlcBase 1
  mem := { cells := [(0x80, 1), (0x87, 0xA0), (0x98, 7)] ++ tableCells, fmeta := [(0, { gen := 1 })] }
  slots := [(0, { slotRun with s := (slotRun.s.setIfInBounds 1 2).setIfInBounds 2 8, wait := v, redirects := rs })] }

theorem witness_ArrivalFences :
    (([(0x2080000000000020, true), (0x2080800000000022, false)] : List (Word × Bool)).all (fun y =>
      let w := y.1
      let s := blkObj .none []
      let b := s.begun 0 w
      decide (s.issuer aMember w 2 2 = some 0) && !bit w 46 && wordOk w false (0, 0) && rsvdOk w [(47, 47), (46, 46), (45, 30), (9, 5), (4, 0)] &&
        okIs (getObj (BitVec.ofNat 32 (b.sreg 0 (bits w 9 5)).toNat) b) (fun o u => decide (u = b ∧ o.owner = (s.slot 0).part.toNat ∧ o.addr = 0x80 ∧
          (o.st = 2 ∧ 0 ≤ diff32 o.version ((b.sreg 0 (bits w 4 0)).toNat % 2 ^ 32) ↔ y.2 = true) ∧ (b.resolve (o.addr + 0x28)).2.isTier = true ∧ b.pins = [])) &&
        (List.range 64).all (fun i => decide (b.resolve (0x80 + i) = (0x80 + i, (b.resolve 0x80).2))))) = true ∧
    (blkObj .none []).Clean ∧ (blkObj .none []).BuffersOk ∧ (blkObj .none []).MemOk ∧
    (let w : Word := 0x2080400000000020
     (blkObj .none []).issuer aMember w 2 2 = some 0 ∧ bit w 46 = true ∧ bit w 47 = false ∧ bits w 45 30 = 0 ∧ wordOk w false (0, 0) = true ∧
      rsvdOk w [(47, 47), (46, 46), (45, 30), (9, 5), (4, 0)] = true) ∧
    (([[], [⟨2, 0, 0, 1⟩, ⟨3, 0, 0, 1⟩]] : List (List Redirect)).all (fun rs => let b := blkObj (.fence 2 8 true) rs
      decide (b.memberKey aMember = some 0 ∧ (b.slot 0).wait = .fence 2 8 true ∧ (b.slot 0).st = .run ∧ (b.slot 0).flt = none) &&
        okIs (getObj 2 b) (fun _ u => decide (u = b)))) = true :=
  ⟨by decide +kernel, clean_of (by decide +kernel) (by decide +kernel), buffers_of rfl rfl, by decide, by decide +kernel, by decide +kernel⟩

/-- Two stage-queue ends of die 0 in DDR5: end 0 sends and holds `cr` credits, end 63 receives into two frames of core 0's local store and a ring of one HBM frame. -/
def blkQueue (cr : Byte) (e0 e63 : SqEnd) : Blk := { blkMem with
  regs := sput memRegs (Reg.memSqBase 0) 0x1001
  mem := {
    cells := (if cr = 0 then [] else [(0x1020, cr)]) ++ [(0x1FC7, 0x80), (0x1FC8, 2), (0x1FCD, 8), (0x1FD5, 4), (0x1FD8, 1)] ++ tableCells
    fmeta := [(0, { gen := 1 }), (0x40000000, { hdr := { klog2 := 5 } })] }
  slots := [(0, { slotRun with t := slotRun.t.setIfInBounds 7 { fmt := some .fp32 } })]
  sqs := [(0, some e0), (63, some e63)] }
def sendEnd : SqEnd := ⟨false, [], 0, 0, 0, 0, 0⟩
def recvEnd (segN ringN owed : Nat) : SqEnd := ⟨true, [], 0, segN, 0, ringN, owed⟩

theorem witness_StageQueues :
    (([0, 1] : List Byte).all (fun cr =>
      let w : Word := 0x20C0000003800000
      let s := blkQueue cr sendEnd (recvEnd 0 0 0)
      let b := s.begun 0 w
      let c := s.cx 0 w
      decide (s.issuer aMember w 2 3 = some 0) && wordOk w false (0, 0) && rsvdOk w [(47, 42), (28, 23), (22, 16)] &&
        okIs (sqUse c (bits w 47 42) false b) (fun p u => decide (u = b ∧ p.1 = 0 ∧ p.2.1 = sendEnd ∧ bits (nth p.2.2 0 4) 31 0 = cr.toNat)) &&
        okIs (sqSrc c (bits w 28 23) 0 b) (fun f u => decide (u = b) && (let b1 := (b.setSq 0 (some { sendEnd with sends := [(f, 0)] })).mapSlot 0 (fun r =>
            { r with wait := .credit 0, waitFrom := s.aon.elapsed })
          okIs (sqWords 0 b1) (fun ws v => decide (v = b1 ∧ bits (nth ws 0 4) 31 0 = cr.toNat)))))) = true ∧
    (let w : Word := 0x2100FC00E0000000
     let s := blkQueue 0 sendEnd (recvEnd 1 0 0)
     let b := s.begun 0 w
     let c := s.cx 0 w
     s.issuer aMember w 2 4 = some 0 ∧ wordOk w false (0, 0) = true ∧ rsvdOk w [(47, 42), (34, 29), (22, 16)] = true ∧ bits w 22 16 + 1 = 1 ∧ bits w 34 29 = 7 ∧
      okIs (sqUse c (bits w 47 42) true b) (fun p u => decide (u = b ∧ p.1 = 63 ∧ p.2.1 = recvEnd 1 0 0 ∧ (u.resolve (sqSeg p.2.2 0)) = (0x080000000000, .store 0 0))) = true ∧
      okIs (wrTileCheck c 7 0 (fun _ _ _ => true) b) (fun _ u => decide (u = b)) = true ∧
      okIs (readFrameAt 0x080000000000 (.store 0 0) false b) (fun p u => decide (u = b ∧ p.2 = 0 ∧ Fmt.ofCode p.1.hdr.fmt.toNat = some .fp32) &&
        okIs (movePut c 7 0 .fp32 p.1 b) (fun _ v => decide (v.sqs = b.sqs))) = true) ∧
    (([recvEnd 1 0 0, recvEnd 2 0 0, recvEnd 2 1 0] : List SqEnd).all (fun e => let s := blkQueue 0 sendEnd e
      decide (s.sq ((0 : Fin 2).val * 64 + (63 : Fin 64).val) = some e ∧ e.recv = true) && okIs (sqWords 63 s) (fun ws u => decide (u = s ∧ bits (nth ws 0 1) 5 0 = 2 ∧
        bits (nth ws 0 3) 15 0 = 1) && okIs (stageTaken ws s) (fun _ v => decide (v.sqs = s.sqs))))) = true ∧
    (let s := blkQueue 0 sendEnd (recvEnd 0 0 3)
     s.sq ((0 : Fin 2).val * 64 + (63 : Fin 64).val) = some (recvEnd 0 0 3) ∧ 0 < (recvEnd 0 0 3).owed ∧ okIs (sqWords 63 s) (fun _ u => decide (u = s)) = true ∧
      s.sq ((0 : Fin 2).val * 64 + (0 : Fin 64).val) = some sendEnd ∧ sendEnd.recv = false) ∧
    (let s := blkQueue 1 sendEnd (recvEnd 0 0 0)
     okIs (sqWords 0 s) (fun ws u => decide (u = s) && okIs (stageTaken ws s) (fun _ b1 => (b1.resolve (b1.sqAddr 0 + 0x20)).2.isTier &&
       okIs (writePa ⟨none⟩ (b1.sqAddr 0 + 0x20) (natLe 8 (setBits (nth ws 0 4) 31 0 (min (bits (nth ws 0 4) 31 0 + 5) (2 ^ 32 - 1))).toNat) b1)
         (fun _ b2 => decide (b2.sq 0 = some sendEnd)))) = true) := by
  refine ⟨by decide +kernel, by decide +kernel, by decide +kernel, by decide +kernel, by decide +kernel⟩

/-! ### Witnesses: placement -/

/-- Object 2 with one frame, slow at DDR5 0x4000 and fast at the start of die 0's HBM; bytes 4 and 7 of its first word and byte 4 of its sixth
are the caller's. Partition 0 may hold 64 KiB of HBM and of DDR5, of which it holds one frame of DDR5; MEM_PLC_ARG is `arg`. -/
def blkPlc (w0b4 w0b7 w5b4 : Byte) (arg : Word) : Blk := { blkMem with
  regs := sput (sput (sput memRegs Reg.memPlcBase 1) Reg.memQuotaBase 0x8001) Reg.memPlcArg arg
  mem := {
    cells := ([(0x80, 1), (0x84, w0b4), (0x87, w0b7), (0x89, 0x40), (0x95, 4), (0x98, 7), (0xAC, w5b4), (0x8002, 1), (0x8012, 1), (0x8019, 0x20)].filter
      (fun c => decide (c.2 ≠ 0))) ++ tableCells
    fmeta := [(0, { gen := 1 }), (2, { gen := 1 }), (4, { gen := 1 })] } }

/-- The package in which a placement command has put the object into MEM_PLC_STS. -/
def plcBegun (s : Blk) (obj : BitVec 32) : Blk := s.setReg Reg.memPlcSts (setBits (s.reg Reg.memPlcSts) 31 0 obj.toNat)

/-- An action answers what passes a check and leaves the package as it was. -/
def reads {α : Type} (a : Act α) (b : Blk) (p : α → Bool) : Bool := okIs (a b) (fun x u => decide (u = b) && p x)

theorem witness_PlacementCommands :
    bit (({ blkMem with regs := sput memRegs Reg.memPlcSts 0x8000000000000000 } : Blk).reg Reg.memPlcSts) 63 = true ∧
    (bit (blkMem.reg Reg.memPlcSts) 63 = false ∧ bit (blkMem.reg Reg.memPlcBase) 0 = false) ∧
    (bit ((blkPlc 0 0 0 0).reg Reg.memPlcSts) 63 = false ∧ bit ((blkPlc 0 0 0 0).reg Reg.memPlcBase) 0 = true) ∧
    reads (readObj 2) (plcBegun (blkPlc 0 0x80 0 0) 2) (fun o => o.valid && decide (o.gen = bits (word 2) 31 20)) = true ∧
    (let b := plcBegun (blkPlc 0 0 0 0) 2
     reads (readObj 2) b (fun o => !o.valid && decide (o.gen = bits (word 2) 31 20 ∧ o.frames ≠ 0 ∧ o.slow + o.frames * 8192 ≤ b.top 2 ∧ hbmBase o.die ≤ o.fast ∧
       o.fast + o.frames * 8192 ≤ b.top o.die) && okIs (chargeQuota o.owner true (o.frames * 8192) b) (fun _ _ => true)) = true) ∧
    (([(0xA0, 0), (0x80, 0x20)] : List (Byte × Byte)).all (fun y => reads (getObj 2) (plcBegun (blkPlc 0 y.1 y.2 0) 2) (fun o =>
       decide (o.st ≠ 0 ∨ o.claims ≠ 0 ∨ o.waiters ≠ 0)))) = true ∧
    (let b := plcBegun (blkPlc 0 0x80 0 0) 2
     reads (getObj 2) b (fun o => decide (o.st = 0 ∧ o.claims = 0 ∧ o.waiters = 0) && okIs (creditQuota o.owner true (o.frames * 8192) b) (fun _ _ => true)) = true) ∧
    reads (getObj 2) (plcBegun (blkPlc 0 0xB0 0 0) 2) (fun o => decide (o.st = 3 ∧ o.charged = false ∧ o.waiters = 0)) = true ∧
    reads (getObj 2) (plcBegun (blkPlc 0 0xB0 0x10 0) 2) (fun o => decide (o.st = 3 ∧ o.charged = true)) = true ∧
    (([(0xE000, true, true), (0xE001, false, false), (0x2000, true, true), (0x2001, true, false)] : List (Word × Bool × Bool)).all (fun y =>
       let b := plcBegun (blkPlc 0 0x80 0 y.1) 0
       bit (b.reg Reg.memQuotaBase) 0 && reads (readWord (b.quotaAddr 0 true)) b (fun lim => reads (readWord (b.quotaAddr 0 true + 8)) b (fun used =>
         decide ((used.toNat + (b.reg Reg.memPlcArg).toNat ≤ lim.toNat ↔ y.2.1 = true) ∧
           ((b.reg Reg.memPlcArg).toNat ≤ used.toNat ↔ y.2.2 = true ∧ y.1 ≠ 0xE000)))))) = true := by
  refine ⟨by decide +kernel, by decide +kernel, by decide +kernel, by decide +kernel, by decide +kernel, by decide +kernel, by decide +kernel,
    by decide +kernel, by decide +kernel, by decide +kernel⟩

/-- The package with the host link of die 0 down. -/
def linkless (b : Blk) : Blk := { b with regs := sput b.regs Reg.hceLinkSts (1 <<< 56) }

theorem witness_ResidencyCompletes :
    (([blkPlc 0 0x80 0 8, linkless (blkPlc 0 0x80 0 8), blkPlc 0x10 0xA0 0 8, blkPlc 0 0xA0 0 7, blkPlc 0 0xA0 0x20 0, blkPlc 0x10 0xA0 0x20 0, blkPlc 0 0xA0 0x40 0] : List Blk).all (fun s =>
       let b := plcBegun s 2
       !bit (s.reg Reg.memPlcSts) 63 && bit (s.reg Reg.memPlcBase) 0 && b.partOn 0 && reads (getObj 2) b (fun o => decide (o.owner = 0)))) = true ∧
    (let b := plcBegun (blkPlc 0 0x80 0 8) 2
     reads (getObj 2) b (fun o => decide (o.st = 0) && !b.linkDown o.die && okIs (takeCharge o b) (fun o1 b1 => okIs (addClaim o1 0 b1) (fun _ _ => true))) = true) ∧
    (let b := plcBegun (linkless (blkPlc 0 0x80 0 8)) 2
     reads (getObj 2) b (fun o => decide (o.st = 0) && b.linkDown o.die) = true) ∧
    (([blkPlc 0x10 0xA0 0 8, blkPlc 0 0xA0 0 7] : List Blk).all (fun s => let b := plcBegun s 2; let v := b.fld Reg.memPlcArg 31 0
     reads (getObj 2) b (fun o => decide (o.st = 2 ∧ (diff32 v o.version ≤ 0 ∨ o.wb = true)) && okIs (addClaim o 0 b) (fun o1 b1 => decide (o1.wb = o.wb ∧ o1.version = o.version) &&
       okIs (wakeFences { o1 with version := if o.wb = true ∧ 0 < diff32 v o.version then v else o.version, st := 2 } b1) (fun _ _ => true))))) = true ∧
    (blkPlc 0 0x80 0 8).partOn 1 = false ∧
    reads (getObj 2) (plcBegun (blkPlc 0 0xA0 0 0) 2) (fun o => reads (hasClaim o 0) (plcBegun (blkPlc 0 0xA0 0 0) 2) (fun h => !h)) = true ∧
    (([(blkPlc 0 0xA0 0x40 0, 0), (blkPlc 0 0xA0 0x20 0, 1), (blkPlc 0x10 0xA0 0x20 0, 2)] : List (Blk × Nat)).all (fun y => let b := plcBegun y.1 2
     reads (getObj 2) b (fun o => reads (hasClaim o 0) b id && okIs (setClaim o 0 false b) (fun o1 b1 => match y.2 with
       | 0 => decide (o1.claims ≠ 0)
       | 1 => decide (o1.st = 2 ∧ o1.claims = 0 ∧ o1.wb = false) && okIs (dropCharge o1 b1) (fun _ _ => true)
       | _ => decide (o1.st = 2 ∧ o1.claims = 0 ∧ o1.wb = true) && !b.linkDown o1.die)))) = true ∧
    (let s := { blkPlc 0 0x90 0x30 0 with resid := [⟨2, true, [.reg]⟩], slots := [(0, { slotRun with wait := .fence 2 0 false })] }
     s.hold = false ∧ reads (getObj 2) s (fun o => !s.linkDown o.die && decide (o.st = 1 ∧ o.claims ≠ 0 ∧ 0 ≤ diff32 o.target 0)) = true ∧
      s.residOf 2 true = some ⟨2, true, [.reg]⟩ ∧ (s.slots.map (·.1)).Nodup ∧ (s.slot 0).wait = .fence 2 0 false) ∧
    (let s := { blkPlc 0x10 0xB0 0 0 with resid := [⟨2, false, []⟩] }
     s.hold = false ∧ reads (getObj 2) s (fun o => !s.linkDown o.die) = true ∧ s.residOf 2 false = some ⟨2, false, []⟩) ∧
    (let s := { blkPlc 0x10 0xB0 0 0 with regs := sput (blkPlc 0x10 0xB0 0 0).regs Reg.hceRestart 0x300000000 }
     s.hold = true ∧ reads (getObj 2) s (fun _ => true) = true) := by
  refine ⟨by decide +kernel, by decide +kernel, by decide +kernel, by decide +kernel, by decide +kernel, by decide +kernel, by decide +kernel,
    by decide +kernel, by decide +kernel, by decide +kernel⟩

/-- The package with an end's entry 0 of die 0 (a sender) and 63 (a receiver), and queue pair 0 open. -/
def blkEnds (own : Word) : Blk := { blkQueue 0 sendEnd (recvEnd 0 0 0) with
  regs := sput (sput (sput memRegs (Reg.memSqBase 0) 0x1001) Reg.memPlcBase 1) (Reg.coreSyncOwn 0 0) own
  sqs := []
  xpt := { qps := [(0, some {})] } }

theorem witness_StageQueueEnds : bit ((blkEnds 0).reg Reg.memPlcSts) 63 = false ∧ bit ((blkEnds 0).reg Reg.memPlcBase) 0 = true ∧
    (let b := plcBegun (blkEnds 0) 0
     (blkEnds 0).sq 0 = none ∧ bit (b.reg (Reg.memSqBase 0)) 0 = true ∧ b.qp 0 = some {} ∧
      reads (sqWords 0) b (fun ws => decide (bits (nth ws 0 0) 47 32 = 0 ∧ bits (nth ws 0 0) 57 48 = 0 ∧ bit (nth ws 0 0) 63 = false)) = true) ∧
    (([0, 0x8000000000000000] : List Word).all (fun own => ((blkEnds own).sq 63).isNone && (let b := plcBegun (blkEnds own) 0
      reads (sqWords 63) b (fun ws => decide (bits (nth ws 0 0) 47 32 = 0 ∧ bits (nth ws 0 0) 57 48 = 0 ∧ bit (nth ws 0 0) 63 = true ∧
        bits (nth ws 0 1) 5 0 = 2 ∧ (b.resolve (bits (nth ws 0 1) 47 13 * 8192)).2 = .store 0 0 ∧ (b.resolve (bits (nth ws 0 1) 47 13 * 8192 + 8192)).2 = .store 0 0 ∧
        bits (nth ws 0 3) 15 0 = 1 ∧ (b.resolve (bits (nth ws 0 2) 47 13 * 8192)).2 = .hbm 0 ∧
        (b.ownsSync 0 (bits (nth ws 0 3) 45 32) = true ↔ own ≠ 0)))))) = true ∧
    ((blkQueue 0 sendEnd (recvEnd 0 0 0)).sq 0).isSome = true := by
  refine ⟨by decide +kernel, by decide +kernel, by decide +kernel, by decide +kernel, by decide +kernel⟩

/-! ### Witnesses: copies -/

/-- S1 is DDR5 frame 0 (VA 0x40000000), S2 is 1, S3 is 64, S4 is object 2; partition 0 owns sync object 0. -/
def copySlot : Slot := { slotRun with s := (((slotRun.s.setIfInBounds 1 0x40000000).setIfInBounds 2 1).setIfInBounds 3 64).setIfInBounds 4 2 }
def blkCopy (full : Bool) : Blk := { blkMem with
  slots := [(0, copySlot)]
  engines := if full then [(3, List.replicate 64 (pcieCopy 0x40000000)), (4, List.replicate 64 (pcieCopy 0x40000000))] else [] }

theorem witness_CopiesQueue :
    (([(0x6020D00000000820, true), (0x6020000000000C20, false), (0x6020200000000C20, false)] : List (Word × Bool)).all (fun y =>
      let w := y.1
      let b := (blkCopy false).begun 0 w
      let c := (blkCopy false).cx 0 w
      let n := (b.sreg 0 (bits w 14 10)).toNat
      let len := if bit w 44 then n * 8192 else n
      decide ((blkCopy false).issuer aMember w 6 0 = some 0) && wordOk w true (0, 0) && copyExtOk 0 &&
        rsvdOk w [(47, 46), (45, 45), (44, 44), (43, 43), (42, 42), (41, 41), (14, 10), (9, 5), (4, 0)] && decide (bit w 44 = y.2) &&
        decide ((b.sreg 0 (bits w 9 5)).toNat % 8192 = 0 ∧ (b.sreg 0 (bits w 4 0)).toNat % 8192 = 0 ∧ (bit w 44 = false → n % 64 = 0)) &&
        reads (copyCheck c 0 len .wr) b (fun rd => reads (copyCheck c 0x40000000 len .rd) b (fun rs =>
          decide (rd.bind (copySide c) ≠ rs.bind (copySide c) ∧ rd ≠ some .pcie ∧ rs ≠ some .pcie))) &&
        reads (compOf c 0 (bit w 43) (bit w 41) (bit w 42) b.nextId) b (fun _ => true) &&
        (List.range 4).all (fun j => decide ((b.eng j).length < 64)))) = true ∧
    (let w : Word := 0x60410000000000E0
     let b := (blkCopy false).begun 0 w
     let c := (blkCopy false).cx 0 w
     (blkCopy false).issuer aMember w 6 1 = some 0 ∧ wordOk w false (1, 24) = true ∧ rsvdOk w [(47, 46), (45, 45), (42, 42), (12, 5), (4, 0)] = true ∧
      bits w 12 5 + 1 = 8 * bits w 52 48 ∧ (b.sreg 0 (bits w 4 0)).toNat % 8 = 0 ∧ reads (copyCheck c 0 8 .wr) b (fun _ => true) = true ∧
      reads (compOf c 0 false false (bit w 42) b.nextId) b (fun _ => true) = true) ∧
    (let w : Word := 0x60A0000000000801
     let b := (blkCopy false).begun 0 w
     let c := (blkCopy false).cx 0 w
     (blkCopy false).issuer aMember w 6 2 = some 0 ∧ wordOk w true (0, 0) = true ∧ copyExtOk 0 = true ∧
      rsvdOk w [(47, 46), (45, 45), (44, 41), (40, 40), (39, 39), (14, 10), (4, 0)] = true ∧ (Fmt.ofCode (bits w 44 41)).isSome = true ∧
      (b.sreg 0 (bits w 4 0)).toNat % 8192 = 0 ∧ reads (copyCheck c 0x40000000 8192 .wr) b (fun rd => rd.all (·.isTier)) = true ∧
      reads (compOf c 0 false (bit w 39) (bit w 40) b.nextId) b (fun _ => true) = true ∧ ((blkCopy false).eng 4).length < 64) ∧
    (let w : Word := 0x6020C00000000C20
     bits w 47 46 = 3 ∧ bit w 45 = false ∧ 64 ≤ (((blkCopy true).begun 0 w).eng 3).length) := by
  refine ⟨by decide +kernel, by decide +kernel, by decide +kernel, by decide +kernel⟩

/-- A copy command of slot 0 with the lowest numbers, and the package that holds it at the head of inbound engine 0 of die 0. -/
def copyCmd (kind : CopyKind) (dst dir : Nat) (flag : Option (Nat × Word)) : CopyCmd :=
  { comp := ⟨1, 0, 1, 0, 7, 0, 0, 0, flag, none, none, false⟩, kind := kind, dst := dst, dir := dir }
def blkHead (x : CopyCmd) : Blk := { blkCopy false with engines := [(0, [x])], outst := [⟨1, 0, 1, .copy false⟩] }

theorem witness_CopyEnds :
    (let x := copyCmd (.copy true 0x40000000 1) 0 0 none
     (blkHead x).eng ((0 : Fin 2).val * 8 + (0 : Fin 8).val) = [x] ∧ x.crosses = true ∧
      ({ blkHead x with regs := sput memRegs Reg.hceRestart 0x300000000 } : Blk).hold = true) ∧
    (let x := { copyCmd (.copyi [1]) 0 0 (some (0, 1)) with comp := { (copyCmd (.copyi [1]) 0 0 (some (0, 1))).comp with id := 2 } }
     ({ blkHead x with engines := [(0, [x]), (1, [copyCmd (.copyi [1]) 0 0 none])] } : Blk).earlierWrites x = true ∧ x.comp.flag.isSome = true) ∧
    (let x := copyCmd (.copy true 0x40000000 1) 0 0 none
     (blkHead x).hold = false ∧ x.held (blkHead x) = false ∧ (linkless (blkHead x)).linkDown (0 : Fin 2).val = true ∧ x.comp.nofault = false ∧
      ((blkHead x).slot x.comp.slot).bound = true ∧ ((blkHead x).slot x.comp.slot).ctx = x.comp.ctx ∧ ((blkHead x).slot x.comp.slot).flt = none ∧
      (blkHead x).linkDown 0 = false ∧
      reads (copyTarget 0 0 0 .wr 8192) ((blkHead x).setEng 0 []) (fun q => q.2.isStore) = true ∧
      reads (copyTarget 0 0 0x40000000 .rd 8192) ((blkHead x).setEng 0 []) (fun q => decide (q = (0, .ddr))) = true ∧
      reads (readFrameAt 0 .ddr false) ((blkHead x).setEng 0 []) (fun p => decide (p.2 = 0)) = true) ∧
    (let x := copyCmd (.copyi [1, 2]) 8190 0 none
     (blkHead x).hold = false ∧ x.held (blkHead x) = false ∧ x.dst % 8192 + [(1 : Byte), 2].length ≤ 8192 ∧
      reads (copyTarget 0 0 8190 .wr 2) ((blkHead x).setEng 0 []) (fun q => q.2.isStore) = true) ∧
    (let x := copyCmd (.gesso 14 1) 0x40002000 2 none
     (blkHead x).hold = false ∧ x.held (blkHead x) = false ∧ Fmt.ofCode 14 = some .int16 ∧
      reads (copyTarget 0 0 0x40002000 .wr 8192) ((blkHead x).setEng 0 []) (fun q => decide (q = (8192, .ddr) ∧ ((blkHead x).setEng 0 []).resolve 8192 = q)) = true ∧
      ((blkHead x).setEng 0 []).Clean ∧ ((blkHead x).setEng 0 []).BuffersOk ∧ ((blkHead x).setEng 0 []).MemOk) := by
  refine ⟨by decide +kernel, by decide +kernel, by decide +kernel, by decide +kernel, by decide +kernel, by decide +kernel, by decide +kernel, by decide +kernel,
    clean_of (by decide +kernel) (by decide +kernel), buffers_of rfl rfl, by decide⟩

/-- The package in which a placement request of slot 0 is registered. -/
def placeBegun (s : Blk) (w : Word) : Blk :=
  { s.begun 0 w with nextId := (s.begun 0 w).nextId + 1, outst := (s.begun 0 w).outst ++ [⟨(s.begun 0 w).nextId, 0, (s.slot 0).ctx, .place⟩] }
def placeComp (s : Blk) (w : Word) : Comp :=
  { id := (s.begun 0 w).nextId, slot := 0, ctx := (s.cx 0 w).ctx, part := (s.cx 0 w).part, pc := (s.cx 0 w).pc, word := w, layer := (s.cx 0 w).layer,
    oper := (s.cx 0 w).oper, nofault := bit w 44 }

theorem witness_PlaceFromStream :
    (([0x60C0000000000080, 0x60C0200000000080] : List Word).all (fun w =>
      decide ((blkCopy false).issuer aMember w 6 3 = some 0) && wordOk w false (0, 0) && rsvdOk w [(47, 45), (44, 44), (9, 5), (4, 0)] &&
        decide (bit (((blkCopy false).begun 0 w).reg Reg.memPlcBase) 0 = false ∧ bit w 44 = false ∧ ((blkCopy false).slot 0).flt = none))) = true ∧
    (([(0x80, 0), (0xA0, 1)] : List (Byte × Nat)).all (fun y =>
      let w : Word := 0x60C0000000000080
      let s : Blk := { blkPlc 0 y.1 0 0 with slots := [(0, copySlot)] }
      decide (s.issuer aMember w 6 3 = some 0) && bit ((s.begun 0 w).reg Reg.memPlcBase) 0 &&
        decide (BitVec.ofNat 32 ((s.begun 0 w).sreg 0 (bits w 9 5)).toNat = 2) &&
        okIs (promote 2 0 0 (.member (placeComp s w)) (placeBegun s w)) (fun r _ => decide (r = if y.2 = 0 then none else some 0)))) = true ∧
    (let w : Word := 0x60C0200000000080
     let s : Blk := { blkPlc 0 0xA0 0x20 0 with slots := [(0, copySlot)] }
     s.issuer aMember w 6 3 = some 0 ∧ bit ((s.begun 0 w).reg Reg.memPlcBase) 0 = true ∧ okIs (evict 2 0 (placeBegun s w)) (fun _ _ => true) = true) := by
  refine ⟨by decide +kernel, by decide +kernel, by decide +kernel⟩

/-! ### Witnesses: memory controllers -/

/-- The package with its lowest DDR5 frame open in a merge buffer, or pinned. -/
def blkMerge : Blk := { blkMem with mem := { blkMem.mem with merge := [⟨15, 0, [(5, 7), (8191, 9)]⟩] } }
def blkPinned : Blk := { blkMem with pins := [⟨0, 0, 0, 0, [0], (0, 0)⟩] }

theorem witness_TierReadsAndWrites :
    (([(0, 0, .ddr), (0x3FFFFFC0, 0x3FFFFFC0, .ddr)] : List (Nat × Nat × Region)).all (fun x => decide (blkMem.resolve x.1 = (x.2.1, x.2.2)) && x.2.2.isTier &&
      !blkMem.unwritten (x.2.1 / 8192) && !(blkMem.fmeta (x.2.1 / 8192)).hdr.poison && decide (0 < min 1 (128 - x.2.1 % 8192 / 64)) && !blkMem.pinned x.2.1 &&
      !blkMem.pinned x.2.1 64 && decide (x.2.1 % 8192 + 64 ≤ 8192))) = true ∧
    blkMem.Clean ∧ blkMem.BuffersOk ∧ blkMem.MemOk ∧ blkMem.mem.poisonLines = [] ∧
    (blkMem.resolve 0x040000000000 = (0x040000000000, .hbm 0) ∧ blkMem.unwritten (0x040000000000 / 8192) = true ∧
      blkMem.entry (0x040000000000 / 8192) = none ∧ blkMem.mem.hostDirty = []) ∧
    blkPinned.pinned 0 = true ∧
    (blkMerge.entry 0 = some ⟨15, 0, [(5, 7), (8191, 9)]⟩ ∧ (15 : Fin 16).val = 15 ∧ blkMerge.BuffersOk) := by
  refine ⟨by decide +kernel, blkMem_clean, blkMem_buffers, by decide, rfl, by decide +kernel, by decide +kernel, by decide +kernel, rfl,
    by decide, by decide, by decide, ?_⟩
  intro e h
  obtain rfl := List.mem_singleton.1 h
  decide +kernel

theorem witness_StorageErrors :
    blkMem.resolve 0 = (0, .ddr) ∧ blkMem.mem.hostDirty = [] ∧ blkMem.mem.merge = [] ∧ blkMem.unwritten 0 = false ∧
    (let v := codeView (((addFlips 0 [528 * 136, 528 * 136 + 511]).exec' blkMem).fmeta 0).errs
     v.syndrome = true ∧ v.erased + 2 * v.symErrs ≤ levelSymbols (blkMem.level .ddr)) ∧
    (let v := codeView (((addFlips 0 [0, 528]).exec' blkMem).fmeta 0).errs
     v.syndrome = true ∧ levelSymbols (blkMem.level .ddr) < v.erased + 2 * v.symErrs) ∧
    satAdd 16 (blkMem.fld (Reg.eccCnt (blkMem.source 0 .ddr)) 63 48) 1 ≤ ({ blkMem with regs := sput memRegs Reg.eccBucketCtrl 1 } : Blk).fld Reg.eccBucketCtrl 15 0 ∧
    ({ blkMem with regs := sput memRegs Reg.eccBucketCtrl 0 } : Blk).fld Reg.eccBucketCtrl 15 0 < satAdd 16 (blkMem.fld (Reg.eccCnt (blkMem.source 0 .ddr)) 63 48) 1 := by
  decide +kernel

/-- The package with both scrubbers on or off, the memory scrubber at a range and frame. -/
def blkScrub (ctrl sts : Word) : Blk := { blkMem with regs := sput (sput memRegs Reg.eccScrubCtrl ctrl) Reg.eccScrubSts sts }

theorem witness_ScrubbersAndBuckets :
    ({ blkMem with regs := sput memRegs Reg.eccBucketCtrl 0 } : Blk).fld Reg.eccBucketCtrl 47 32 = 0 ∧
    ({ blkMem with regs := sput memRegs Reg.eccBucketCtrl 0x100000000 } : Blk).fld Reg.eccBucketCtrl 47 32 ≠ 0 ∧
    bit (blkMem.reg Reg.secPolicy) 0 = true ∧ bit ((blkScrub 0 0).reg Reg.eccScrubCtrl) 0 = false ∧ bit ((blkScrub 0 0).reg Reg.eccScrubCtrl) 1 = false ∧
    bit ((blkScrub 3 0).reg Reg.eccScrubCtrl) 0 = true ∧ bit ((blkScrub 3 0).reg Reg.eccScrubCtrl) 1 = true ∧ (blkScrub 3 0).dozing = false ∧
    (([(0, 0, true), (0, 0x1FFFF, false), (2, 0, true), (2, 0x1FFFF, false)] : List (Nat × Nat × Bool)).all (fun y => let b := blkScrub 3 (word (y.1 <<< 30 ||| y.2.1))
      decide (b.fld Reg.eccScrubSts 31 30 = y.1 ∧ b.fld Reg.eccScrubSts 29 0 = y.2.1 ∧ (b.fmeta ((b.resolve (scrubAddr y.1 y.2.1)).1 / 8192)).errs = [] ∧
        b.mem.hostDirty = [] ∧ (y.2.1 + 1 < b.scrubFrames y.1 ↔ y.2.2 = true)))) = true := by decide +kernel

/-! ### Witnesses: updates -/

/-- Object 2 is Fast with eight frames at the start of die 0's HBM, which carry stamp 2; the shard block at VA 0x8000 of core 0's local store has one
BF16 weight tile of it, its gradient at VA 0x80010000, its state at VA 0x80000000, its even working copy at VA 0x80020000; a program at VA 0xA000.
S5 names the block, S6 is step 2, S7 the program. -/
def updProg3 : Prog := { lay4 := false, fact := false, fbop := 0, mrm := 0, ks := List.replicate 8 0, steps := [⟨1, 0, 0, 4, 0⟩] }
def blkUpd : Blk := { blkMem with
  regs := sput memRegs Reg.memPlcBase 1
  mem := {
    cells := [(0x80, 8), (0x87, 0xA0), (0x89, 0x40), (0x95, 4)] ++
      ([(0x8000, 2), (0x8005, 0x10), (0x8006, 2), (0x800A, 1), (0x800B, 0x80), (0x801B, 0x80), (0x8020, 0x10), (0x8022, 4),
        (0xA007, 0x04), (0xA045, 0x20), (0xA047, 0x04)].map (fun c => (0x080000000000 + c.1, c.2))) ++ tableCells
    fmeta := (0, { gen := 1 }) :: (List.range 8).map (fun i => (0x20000000 + i, { gen := 1, hdr := { klog2 := 5, stamp := 2 } })) }
  slots := [(0, { slotRun with
    s := ((slotRun.s.setIfInBounds 5 0x8000).setIfInBounds 6 2).setIfInBounds 7 0xA000
    progs := slotRun.progs.setIfInBounds 3 (some updProg3) })] }

def updPin : Pin := ⟨0, 0x080000008000, 2, 0, [0x20000000], (0, 0)⟩

theorem witness_ProgramsAndPins :
    (let w : Word := 0x7000C00000000007
     let b := blkUpd.begun 0 w
     let c := blkUpd.cx 0 w
     blkUpd.issuer aMember w 7 0 = some 0 ∧ wordOk w false (0, 0) = true ∧ rsvdOk w [(47, 46), (4, 0)] = true ∧
      (b.sreg 0 (bits w 4 0)).toNat = 0xA000 ∧ reads (rdBytes c 0xA000 512 (fun b => b.ownLocal c)) b (fun bs =>
        decide ((progOf (blockWords 64 bs)).map (fun p => (p.lay4, p.fact, p.ks, p.steps)) = some (false, false, List.replicate 8 0, [⟨1, 0, 0, 4, 0⟩]))) = true) ∧
    (let w : Word := 0x70C00000000000A6
     let s : Blk := { blkUpd with pins := [updPin] }
     let b := s.begun 0 w
     let c := s.cx 0 w
     s.issuer aMember w 7 3 = some 0 ∧ wordOk w false (0, 0) = true ∧ rsvdOk w [(9, 5), (4, 0)] = true ∧ (b.sreg 0 (bits w 9 5)).toNat % 128 = 0 ∧
      reads (translate c.part (b.sreg 0 (bits w 9 5)).toNat .rd) b (fun pa => reads (engineAddr ⟨some c.die⟩ pa) b (fun q =>
        decide (updPin.blk = q.1 ∧ updPin.step = (b.sreg 0 (bits w 4 0)).toNat % 2 ^ 32 ∧ c.part = updPin.part))) = true ∧ blkUpd.pins = []) := by
  refine ⟨by decide +kernel, by decide +kernel⟩

theorem witness_ParameterUpdate : 0 < 1 ∧ updProg3.lay4 = false ∧ ({ updProg3 with lay4 := true } : Prog).lay4 = true := by decide

/-- The operands of a RUN that repeats step 2 of that shard. -/
def updRunCx (sc : Val) (k : Shard) (grads sts works : List (Nat × Region)) : RunCx :=
  { k := k, p := updProg3, x := 0, s := 2, sc := sc, ns := [1, 1], nst := [], needQ := false, per := 4, grads := grads, stats := [], fin := [], fout := [],
    sts := sts, works := works }

theorem witness_UpdateRuns :
    let w : Word := 0x7060C000000000A6
    let b := blkUpd.begun 0 w
    let c := blkUpd.cx 0 w
    blkUpd.issuer aMember w 7 1 = some 0 ∧ runOk w = true ∧ bits w 45 44 = 0 ∧ (b.sreg 0 (bits w 4 0)).toNat % 2 ^ 32 = 2 ∧
      ((b.slot 0).progs.toList[bits w 47 46]?).getD none = some updProg3 ∧
      reads (readShard c 0x8000) b (fun k => reads (readShard c 0x8000) blkUpd (fun k' => decide (k' = k)) && reads (shardObj c k) b (fun o =>
        reads (shardObj c k) blkUpd (fun o' => decide (o' = o)) && k.ok && !b.runBusy k.pa && decide (b.pins = [] ∧ o.uplace < 2 ∧ o.st = 2 ∧ k.sig = false ∧
          k.rvalid = false ∧ k.gacc = false ∧ k.tiles = 1 ∧ k.half = false) &&
        reads (framesAt c (k.frame 0x08) k.gcnt false (gradPlace c.die)) b (fun grads => reads (framesAt c (k.frame 0x30) 0 false (gradPlace c.die)) b (fun st0 =>
          decide (st0 = []) && reads (landCounts c k (bits (k.w 0x08) 63 48) k.gcnt) b (fun ns => decide (ns = [1, 1])) &&
          reads (landCounts c k (bits (k.w 0x30) 63 48) 0) b (fun ns => decide (ns = [])) &&
          reads (stateFrames c k o (4 * k.tiles) true) b (fun sts => reads (framesAt c (k.wb 2) k.tiles true Region.isHbm) b (fun works =>
            (grads ++ sts).all (fun y => (b.peek y.1 y.2).all (fun h => decide (h.fmt = 0))) &&
            sts.all (fun y => (b.peek y.1 y.2).all (fun h => decide (h.stamp.toNat = 2))) &&
            reads (framesAt c (k.fb 1) 0 false Region.isHbm) b (fun l => decide (l = [])) && reads (framesAt c (k.fb 2) 0 true Region.isHbm) b (fun l => decide (l = [])) &&
            okIs (takePin c k 2 (grads.map (fun y => y.1 / 8192)) (0, 0) b) (fun _ b1 =>
              let b2 := (blockPut (k.pa + 0x58) 4 0).exec' b1
              reads (runScale k 0 [1, 1] grads) b2 (fun sc => okIs (runTile c (updRunCx sc k grads sts works) b2.nextId 0 { b2 with
                nextId := b2.nextId + 1, outst := b2.outst ++ [⟨b2.nextId, 0, c.ctx, .run⟩] }) (fun _ _ => true))))))))) = true := by
  refine ⟨by decide +kernel, by decide +kernel, by decide +kernel, by decide +kernel, by decide +kernel, by decide +kernel⟩

/-- The package with one run of slot 0 that has computed its tiles. -/
def aRun (flag : Option Nat) (acked : Bool) : RunSt :=
  { id := 1, slot := 0, ctx := 1, part := 0, die := 0, blk := 0x080000008000, step := 2, flag := flag, sobj := some (16383, 5), acked := acked }
def blkRun1 (r : RunSt) : Blk := { blkUpd with
  regs := sput blkUpd.regs (Reg.coreSyncOwn 1 8191) 0x8000000000000000
  pins := [updPin], runs := [r], outst := [⟨1, 0, 1, .run⟩] }

theorem witness_RunCommits : (blkRun1 (aRun none true)).memberKey aMember = some 0 ∧ (aRun none true).slot = 0 ∧ (aRun none true).waits = false ∧
    ((aRun (some 0) true).flag.isSome = true ∧ ({ blkRun1 (aRun (some 0) true) with regs := sput memRegs Reg.hceRestart 0x300000000 } : Blk).hold = true) ∧
    ((aRun none false).gacc = none ∧ (aRun none false).acked = false ∧ (aRun none false).unmir = false) ∧
    ((aRun none true).acked = true ∧ (aRun none true).sobj = some (16383, 5) ∧
      (blkRun1 (aRun none true)).syncOwner 16383 = some (aRun none true).part) := by decide +kernel

/-- Package 1 with a route and an open queue pair to partition 0 of package 0, its context cached. -/
def blkSnap : Blk := { blkUpd with
  regs := sput (sput blkUpd.regs Reg.pkgNumber 0x80000001) (Reg.xptRoute 0) 0x80
  xpt := { qps := [(1, some {})], cache := [[1], []] } }

/-- Whichever layout the snapshot has (log entry 43), its state frames are in place, stamped and readable. -/
theorem witness_SnapshotsSend :
    let w : Word := 0x70A00800000000A6
    let b := blkSnap.begun 0 w
    let c := blkSnap.cx 0 w
    let b1 : Blk := { b with free := b.free + 1 }
    blkSnap.issuer aMember w 7 2 = some 0 ∧ wordOk w true (0, 0) = true ∧ rsvdOk w [(47, 44), (43, 43), (9, 5), (4, 0)] = true ∧
      Fmt.ofCode (bits w 47 44) = some .fp32 ∧ gOff 0 % 8192 = 0 ∧ (b.sreg 0 (bits w 4 0)).toNat % 2 ^ 32 = 2 ∧ b1.gLocal c.part 0 = false ∧
      reads (snapQp c 0) b1 (fun n => decide (n = 1)) = true ∧ reads (remComp c 0 ⟨false, false, false, false⟩ b1.nextId) b1 (fun _ => true) = true ∧
      reads (remRoom c 1) b1 (fun _ => true) = true ∧
      ∀ lay4 : Bool, reads (readShard c 0x8000) b (fun k => !b.runBusy k.pa && reads (shardObj c k) b (fun o => decide (k.tiles = 1) &&
        reads (stateFrames c k o ((if lay4 then 8 else 4) * k.tiles) false) b1 (fun sts =>
          sts.all (fun y => (b1.peek y.1 y.2).all (fun h => decide (h.stamp.toNat = 2))) && reads (sts.mapM goodFrame) b1 (fun _ => true)))) = true := by
  refine ⟨by decide +kernel, by decide +kernel, by decide +kernel, by decide +kernel, by decide +kernel, by decide +kernel, by decide +kernel,
    by decide +kernel, by decide +kernel, by decide +kernel, ?_⟩
  decide +kernel

/-! ### Witnesses: remote operations -/

/-- S1 names the queue pair, S2 a place in partition 0 of package 0, S3, S11 and S12 places of the own partition, S4 a frame of DDR5, S5 a length, S6 a
count, S9 and S10 frames of HBM. -/
def remRegs : List (Nat × Word) :=
  [(1, 1), (3, 0x0010000040002000), (4, 0x40000000), (5, 64), (6, 1), (9, 0x80000000), (11, 0x0010000080002000), (12, 0x0010000040000000)]
def blkRem : Blk := { blkSnap with
  slots := [(0, { slotRun with s := remRegs.foldl (fun m x => m.setIfInBounds x.1 x.2) slotRun.s })] }

/-- An operation that sends the packets `ps` to `g`: it meets the conditions of its queue pair, or of the own partition. -/
def remMeets (w x g : Word) (kind : RemKind) (want : Nat) (ps : List (Packet × Option Nat)) : Bool :=
  let b := blkRem.begun 0 w
  let c := blkRem.cx 0 w
  let f : RemBits := ⟨false, false, false, false⟩
  let b1 : Blk := { b with nextId := b.nextId + 1, outst := b.outst ++ [⟨b.nextId, 0, c.ctx, .remote⟩] }
  remExtOk x f && reads (remComp c x f b.nextId) b (fun comp =>
    if b.gLocal c.part g then
      decide (comp.flag = none ∧ comp.sig = none) && okIs (localGo c
        { comp := comp, kind := kind, die := c.die, left := 0, want := if ps.isEmpty then 0 else want, status := 0 } (marks (ps.map (·.1))) b1) (fun r _ => decide (r.1 = 0))
    else reads (remQp c w g) b (fun n => reads (remRoom c n) b (fun _ => true)))

/-- The word of a remote operation. -/
def remWord (op rest : Nat) : Word := word (6 <<< 60 ||| op <<< 54 ||| 1 <<< 53 ||| 1 <<< 15 ||| rest)

/-- Each for a place behind the queue pair (S2) and one of the own partition (S3, S11, S12). -/
theorem witness_RemoteOperations :
    (∀ t ∈ [2, 3], let w := remWord 8 (1 <<< 47 ||| 6 <<< 10 ||| 4 <<< 5 ||| t)
      let b := blkRem.begun 0 w
      let c := blkRem.cx 0 w
      let g := b.sreg 0 (bits w 4 0)
      let va := (b.sreg 0 (bits w 9 5)).toNat
      let len := (b.sreg 0 (bits w 14 10)).toNat
      blkRem.issuer aMember w 6 8 = some 0 ∧ wordOk w true (0, 0) = true ∧
        rsvdOk w [(47, 47), (46, 46), (45, 45), (44, 44), (43, 43), (19, 15), (14, 10), (9, 5), (4, 0)] = true ∧ bit w 47 = true ∧ len = 1 ∧
        gOff g % 8192 = 0 ∧ va % 8192 = 0 ∧ reads (remRange c va (len * 8192) .rd) b (fun l =>
          reads (srcFrames c g 8192 { op := 0x01, cls := 4 } (l.map (fun q => (q.1, q.2.1)))) b (fun p =>
            decide (p.1.length = 1 ∧ p.2 = 0) && remMeets w 0 g .write 0 p.1)) = true) ∧
    (∀ t ∈ [2, 3], let w := remWord 8 (5 <<< 10 ||| 4 <<< 5 ||| t)
      let b := blkRem.begun 0 w
      let c := blkRem.cx 0 w
      let g := b.sreg 0 (bits w 4 0)
      let va := (b.sreg 0 (bits w 9 5)).toNat
      let len := (b.sreg 0 (bits w 14 10)).toNat
      blkRem.issuer aMember w 6 8 = some 0 ∧ wordOk w true (0, 0) = true ∧
        rsvdOk w [(47, 47), (46, 46), (45, 45), (44, 44), (43, 43), (19, 15), (14, 10), (9, 5), (4, 0)] = true ∧ bit w 47 = false ∧ len = 64 ∧
        gOff g % 64 = 0 ∧ va % 64 = 0 ∧ reads (remRange c va len .rd) b (fun _ => reads (srcBytes c g va len { op := 0x01, cls := 4 }) b (fun p =>
          decide (p.1.length = 1 ∧ p.2 = 0) && remMeets w 0 g .write 0 p.1)) = true) ∧
    (∀ t ∈ [2, 3], let w := remWord 9 (1 <<< 48 ||| 7 <<< 33 ||| t)
      let b := blkRem.begun 0 w
      let g := b.sreg 0 (bits w 4 0)
      blkRem.issuer aMember w 6 9 = some 0 ∧ wordOk w true (1, 24) = true ∧
        rsvdOk w [(46, 46), (45, 45), (44, 44), (43, 43), (40, 33), (19, 15), (4, 0)] = true ∧ bits w 40 33 + 1 ≤ 8 * bits w 52 48 ∧ gOff g % 8 = 0 ∧
        remMeets w 0 g .write 0 [({ op := 0x01, cls := 4, addr := g, len := 8, bytes := (padTo 8 (wordsBytes [7])).take 8 }, none)] = true) ∧
    (∀ t ∈ [2, 12], ∀ fr ∈ [0, 1], let w := remWord 0xA (fr <<< 47 ||| (if fr = 1 then 6 else 5) <<< 10 ||| t <<< 5 ||| 4)
      let b := blkRem.begun 0 w
      let c := blkRem.cx 0 w
      let g := b.sreg 0 (bits w 9 5)
      let va := (b.sreg 0 (bits w 4 0)).toNat
      let num := (b.sreg 0 (bits w 14 10)).toNat
      let al := if bit w 47 then 8192 else 64
      let len := if bit w 47 then num * 8192 else num
      blkRem.issuer aMember w 6 0xA = some 0 ∧ wordOk w true (0, 0) = true ∧
        rsvdOk w [(47, 47), (46, 46), (45, 45), (44, 44), (19, 15), (14, 10), (9, 5), (4, 0)] = true ∧ gOff g % al = 0 ∧ va % al = 0 ∧
        (bit w 47 = false → num % 64 = 0) ∧ 0 < len ∧ reads (remRange c va len .wr) b (fun _ => remMeets w 0 g (.read (bit w 47) va len) len
          [({ op := 0x03, cls := 4, addr := g, opnd0 := word len, opnd1 := word (b2n (bit w 47)) }, none)]) = true) ∧
    (∀ t ∈ [2, 12], ∀ re ∈ [0, 4], let w := remWord 0xB (1 <<< 46 ||| re <<< 25 ||| 6 <<< 10 ||| t)
      let b := blkRem.begun 0 w
      let c := blkRem.cx 0 w
      let g := b.sreg 0 (bits w 4 0)
      let ret := (b.sreg 0 (bits w 29 25)).toNat
      blkRem.issuer aMember w 6 0xB = some 0 ∧ wordOk w true (0, 0) = true ∧
        rsvdOk w [(47, 46), (45, 45), (44, 44), (42, 40), (29, 25), (24, 20), (19, 15), (14, 10), (4, 0)] = true ∧
        atomOk (bits w 47 46) (bits w 42 40) = true ∧ gOff g % atomSize (bits w 42 40) = 0 ∧ ret % 8 = 0 ∧
        (bits w 29 25 = 0 ∨ reads (remRange c ret 8 .wr) b (fun _ => true) = true) ∧
        remMeets w 0 g (.atomic (if bits w 29 25 ≠ 0 then some ret else none) 8) 1 [({
          op := 0x05, cls := 3, addr := g, aux := 1 <<< 30, opnd0 := b.sreg 0 (bits w 14 10), opnd1 := b.sreg 0 (bits w 24 20) }, none)] = true) ∧
    (∀ t ∈ [2, 11], let w := remWord 0xC (9 <<< 5 ||| t)
      let b := blkRem.begun 0 w
      let c := blkRem.cx 0 w
      let g := b.sreg 0 (bits w 4 0)
      let va := (b.sreg 0 (bits w 9 5)).toNat
      blkRem.issuer aMember w 6 0xC = some 0 ∧ wordOk w true (0, 0) = true ∧
        rsvdOk w [(47, 44), (43, 40), (39, 39), (38, 38), (37, 37), (36, 36), (35, 28), (24, 20), (19, 15), (9, 5), (4, 0)] = true ∧
        Fmt.ofCode (bits w 47 44) = some .fp32 ∧ Fmt.ofCode (bits w 43 40) = some .fp32 ∧ addPair .fp32 .fp32 = true ∧ gOff g % 8192 = 0 ∧ va % 8192 = 0 ∧
        reads (remRange c va ((bits w 35 28 + 1) * 8192) .rd) b (fun l =>
          l.all (fun q => reads (readFrameAt q.1 q.2.1 false) b (fun fz => decide (fz.2 = 0) && headerIs fz.1.hdr .fp32)) &&
          reads (srcFrames c g 8192 { op := 0x07, cls := 3 } (l.map (fun q => (q.1, q.2.1)))) b (fun p =>
            decide (p.1.length = 1 ∧ p.2 = 0) && remMeets w 0 g .rtadd 0 p.1)) = true) := by
  refine ⟨by decide +kernel, by decide +kernel, by decide +kernel, by decide +kernel, by decide +kernel, by decide +kernel⟩

theorem witness_AtomicValues :
    (5 : Nat) < 2 ^ 64 ∧ (1 : Nat) ≤ 1 ∧ Region.isTier .ddr = true ∧ (blkMem.fmeta (8192 / 8192)).errs = [] ∧
      (blkMem.fmeta (8192 / 8192)).hdr.poison = false ∧ atomOk 2 1 = true := by decide +kernel

/-- The package with slot 0 of the aperture on: queue pair 1, towards `g`. -/
def blkAper (pkg : Nat) (qp : Nat) : Blk := { blkRem with
  regs := sput blkRem.regs (Reg.xptAper 0) (word (1 <<< 63 ||| pkg <<< 44 ||| qp)) }

theorem witness_ApertureAccesses :
    (∃ size ∈ [3, 8], ¬ (0x400000000000 ≤ (0x400000000004 : Nat) ∧ (0x400000000004 : Nat) < 0x800000000000 ∧
      bit ((blkAper 0 1).reg (Reg.xptAper 0)) 63 = true ∧ size ∈ [1, 2, 4, 8, 16, 32] ∧ 0x400000000004 % size = 0)) ∧
    (¬ (HostOp.amoSwap = .amoAdd ∧ (8 = 4 ∨ 8 = 8))) ∧ ([7, 7] : List Byte).length ∈ [1, 2, 4, 8, 16, 32] ∧
    (let addr := 0x400040000000
     let e := (blkAper 0 1).reg (Reg.xptAper 0)
     0x400000000000 ≤ addr ∧ addr < 0x800000000000 ∧ bit e 63 = true ∧ 8 ∈ [1, 2, 4, 8, 16, 32] ∧ addr % 8 = 0 ∧ bits e 15 0 = 1 ∧
      ((blkAper 0 1).qp 1 = some {} ∧ (blkAper 0 1).gLocal 0 0x40000000 = false ∧ (({} : QpSt).err = none) ∧
        ({} : QpSt).peerPkg = gPkg 0x40000000 ∧ ({} : QpSt).peerPart = gPart 0x40000000)) ∧
    (let e := (blkAper 0 2).reg (Reg.xptAper 0)
     bit e 63 = true ∧ bits e 15 0 = 2 ∧ (blkAper 0 2).qp 2 = none) := by decide +kernel

/-! ### Witnesses: lanes -/

/-- Lane 0 with role 1 and all rates, in a state, with the word of FAB_CTRL and the other fields of its status. -/
def blkLane (st : Nat) (ctrl sts : Nat) : Blk := { Blk.reset with
  regs := [(Reg.fabLaneCfg 0, word 0x13C0), (Reg.fabLaneSts 0, word (st <<< 60 ||| sts)), (Reg.fabCtrl, word ctrl)].foldl
    (fun m x => sput m x.1 x.2) Blk.reset.regs }

theorem witness_LaneTraining :
    (∀ st ∈ [1, 2, 3, 4, 6, 7], ∀ h ∈ [0, 1], (blkLane st h 0).leads 0 = true ∧ (blkLane st h 0).laneSt 0 = st ∧
      (blkLane st h 0).hellos 0 = decide (h = 1)) ∧
    (blkLane 1 0 0).rates 0 &&& (1 : BitVec 3).toNat ≠ 0 ∧ (blkLane 1 0 0).rates 0 &&& (0 : BitVec 3).toNat = 0 ∧
    ((blkLane 1 0x2000000 0).fld (Reg.fabLaneSts 0) 35 32 + 1 < max ((blkLane 1 0x2000000 0).fld Reg.fabCtrl 27 24) 1) ∧
    (∀ e ∈ [0, 1], max ((blkLane 1 (0x1000000 + e * 0x800000) 0).fld Reg.fabCtrl 27 24) 1 ≤
      (blkLane 1 (0x1000000 + e * 0x800000) 0).fld (Reg.fabLaneSts 0) 35 32 + 1 ∧ bit ((blkLane 1 (0x1000000 + e * 0x800000) 0).reg Reg.fabCtrl) 23 = decide (e = 1)) ∧
    ((blkLane 4 0 0).takes .control (Reg.fabLaneCfg 0) = true ∧
      laneCfgOf 0 ((blkLane 4 0 0).reg (Reg.fabLaneCfg 0)) 0x2380 ≠ (blkLane 4 0 0).reg (Reg.fabLaneCfg 0) ∧ (blkLane 4 0 0).laneSt 0 ≠ 5) := by decide +kernel

theorem witness_LaneStates : (0 < 49 ∧ 47 < 49 ∧ 9 < 16) ∧ (∀ i < 49, Reg.fabCtrl ≠ Reg.fabLaneSts i) ∧ (blkLane 3 0 0).stageRes 7 ≠ 1 ∧
    (blkLane 3 0 0).xpt.out = [] := by decide +kernel

/-- A hello of lane 5, role 2, of package 9. -/
def aHello (version : BitVec 16) (role : BitVec 8) (leaving : Bool) : Hello :=
  { version := version, up := false, seen := true, leaving := leaving, serial := 77, valid := true, package := 9, lane := 5, role := role, linc := 3, mac := 5 }

/-- The lane UP with what a hello said of its peer. -/
def blkUp : Blk := (blkLane 5 1 0x30000).setPort 0 { (blkLane 5 1 0x30000).port 0 with peer := some (77, 5) }

theorem witness_HellosTakeLanesUp :
    (∀ st ∈ [3, 4, 5, 8], (blkLane st 0x400001 0).leads 0 = true ∧ (blkLane st 0x400001 0).hellos 0 = true ∧ (blkLane st 0x400001 0).peerRole 0 = true ∧
      (blkLane st 0x400001 0).laneSt 0 = st ∧ (((blkLane st 0x400001 0).port 0).inQueue 7).length < 64) ∧
    (aHello 2 2 false).version ≠ 1 ∧ (aHello 1 2 false).version = 1 ∧ (blkLane 4 0x400001 0).helloOk 0 (aHello 1 2 false) = true ∧
    (aHello 1 2 false).seen = true ∧ (blkLane 4 0x400001 0).helloOk 0 (aHello 1 3 false) = false ∧
    (blkUp.leads 0 = true ∧ blkUp.peerRole 0 = true ∧ blkUp.laneSt 0 = 5 ∧ (blkUp.port 0).peer = some (77, 5) ∧ (aHello 1 2 true).leaving = true ∧
      (aHello 1 2 false).leaving = false ∧ (aHello 1 2 false).serial = 77 ∧ (aHello 1 2 false).linc.toNat = blkUp.fld (Reg.fabLaneSts 0) 31 16) ∧
    (blkUp.hellos 0 = true ∧ blkUp.holdsPeer 0 = false ∧ blkUp.stageRes 7 ≠ 1 ∧ blkUp.xpt.out = [] ∧ (blkUp.port 0).txq = []) := by decide +kernel

/-! ### Witnesses: the MAC -/

/-- Lane 0 in a state on the package with its tiers, with more registers. -/
def blkMac (st : Nat) (rs : List (Nat × Nat)) : Blk := { blkMem with
  regs := ([(Reg.fabLaneCfg 0, 0x13C0), (Reg.fabLaneSts 0, st <<< 60), (Reg.fabCtrl, 1), (Reg.xptCtrl, 4791 <<< 48)] ++ rs).foldl
    (fun m x => sput m x.1 (word x.2)) memRegs }

/-- A frame to port 0, or to another station. -/
def aFrame (dst etype : Nat) (body : List Byte) : RxFrame :=
  ⟨padTo (max 60 (14 + body.length)) (ethBytes dst 0x020000000007 none 0 etype body), false, 0, 2⟩
/-- A datagram to the transport's port over IPv6. -/
def aDatagram : RxFrame := aFrame ((blkMac 5 []).macOf 0) 0x86DD (ipv6Bytes 1 (linkLocal ((blkMac 5 []).macOf 0)) 0 64 0 7 4791 (List.replicate 64 1))

theorem witness_FramesReceived :
    let good (b : Blk) (f : RxFrame) : Prop := b.badFlags 0 f = 0 ∧ ¬((ethView f.bytes).tags = 0 ∧ (ethView f.bytes).etype = 0x8808)
    let mine (f : RxFrame) : Prop := (blkMac 5 []).dstOk 0 (ethView f.bytes).dst = true ∧ (ethView f.bytes).tags = 0 ∧
      ((blkMac 5 []).port 0).held none + f.bytes.length + 4 ≤ 524288
    let mac := (blkMac 5 []).macOf 0
    (∀ r ∈ [0, 1 <<< 61, 1 <<< 63], (blkMac 5 [(Reg.macCtrl 0, r)]).pwr.asleep = false ∧ (blkMac 5 [(Reg.macCtrl 0, r)]).dozing = false ∧
      (blkMac 5 [(Reg.macCtrl 0, r)]).leads 0 = true ∧ (blkMac 5 [(Reg.macCtrl 0, r)]).laneSt 0 = 5 ∧ bit ((blkMac 5 [(Reg.macCtrl 0, r)]).reg (Reg.macCtrl 0)) 62 = false ∧
      bit ((blkMac 5 [(Reg.macCtrl 0, r)]).reg (Reg.macCtrl 0)) 61 = decide (r = 1 <<< 61) ∧ bit ((blkMac 5 [(Reg.macCtrl 0, r)]).reg (Reg.macCtrl 0)) 63 = decide (r = 1 <<< 63)) ∧
    (∀ f : RxFrame, f ∈ [{ aFrame mac 0x88B5 [] with fcsBad := true }, ⟨[1], false, 0, 0⟩] → (blkMac 5 []).badFlags 0 f ≠ 0) ∧
    ((blkMac 5 []).badFlags 0 (aFrame 0x0180C2000001 0x8808 [0, 1, 0, 9]) = 0 ∧ (ethView (aFrame 0x0180C2000001 0x8808 [0, 1, 0, 9]).bytes).tags = 0 ∧
      (ethView (aFrame 0x0180C2000001 0x8808 [0, 1, 0, 9]).bytes).etype = 0x8808) ∧
    (good (blkMac 5 []) (aFrame 0x020000ABCDEF 0x9999 []) ∧ (blkMac 5 []).dstOk 0 (ethView (aFrame 0x020000ABCDEF 0x9999 []).bytes).dst = false) ∧
    (good (blkMac 5 []) (aFrame mac 0x88B5 []) ∧ mine (aFrame mac 0x88B5 []) ∧ (blkMac 5 []).peerRole 0 = true ∧ (ethView (aFrame mac 0x88B5 []).bytes).etype = 0x88B5) ∧
    (good (blkMac 5 []) aDatagram ∧ mine aDatagram ∧ (ethView aDatagram.bytes).etype ≠ 0x88B5 ∧ (udpView (ethView aDatagram.bytes)).any (fun v =>
      decide (v.badSum = false ∧ v.noSum = false ∧ v.dport = (blkMac 5 []).fld Reg.xptCtrl 63 48 ∧ (blkMac 5 []).isOurIp v.v4 v.dst = true)) = true) ∧
    (good (blkMac 5 []) (aFrame mac 0x9999 []) ∧ mine (aFrame mac 0x9999 []) ∧ (ethView (aFrame mac 0x9999 []).bytes).etype ≠ 0x88B5 ∧
      udpView (ethView (aFrame mac 0x9999 []).bytes) = none) := by decide +kernel

/-- A frame of a queue: the second of the highest that is not paused, a packet and one that is paused with it. -/
def aTx (q : Nat) (k : TxKind) (x : Byte) : TxFrame := ⟨q, 0, k, List.replicate 60 x⟩
def blkTx (k : TxKind) : Blk := (blkMac 5 [(Reg.macFcSts 0, 0x80)]).setPort 0 { (blkMac 5 []).port 0 with
  txq := [aTx 7 .hello 1, aTx 2 .hello 2, aTx 5 k 3, aTx 5 .hello 4] }
/-- The transmit ring with one slot at address 0 that is ready: 60 bytes for port 0, queue 3. -/
def blkRing (en : Nat) : Blk := { blkMac 5 [(Reg.fabTxrCfg, en <<< 63 ||| 4)] with
  mem := { blkMem.mem with cells := (4, 0x60) :: (6, 60) :: blkMem.mem.cells } }

theorem witness_FramesSent :
    (∀ k ∈ [3, 4, 5, 8], (blkMac k []).leads 0 = true ∧ (blkMac k []).laneSt 0 = k) ∧
    (((blkMac 5 []).setPort 0 { (blkMac 5 []).port 0 with ctl := [[1], [2]] }).port 0).ctl = [1] :: [[2]] ∧
    (∀ k ∈ [TxKind.hello, .ring true], (blkTx k).leads 0 = true ∧ (blkTx k).laneSt 0 = 5 ∧ ((blkTx k).port 0).ctl = [] ∧ (blkTx k).fld (Reg.macFcSts 0) 23 16 = 0 ∧
      (((blkTx k).port 0).txq.filter (fun x => !(blkTx k).paused 0 x.q)).find? (fun x => decide (x.q = (aTx 5 k 3).q)) = some (aTx 5 k 3) ∧
      (∀ x ∈ ((blkTx k).port 0).txq, (blkTx k).paused 0 x.q = false → x.q ≤ 5)) ∧
    (∀ k ∈ [TxKind.hello, .ring true], ∀ x ∈ ((blkTx k).port 0).txq, ∀ p t, x.kind = .pkt p t → x.linc = (blkTx k).fld (Reg.fabLaneSts 0) 15 0) ∧
    (∀ e ∈ [0, 1], (blkRing e).takes .control Reg.fabTxrIdx = true ∧ bit ((blkRing e).reg Reg.fabTxrCfg) 63 = decide (e = 1) ∧
      (blkRing e).takes .control Reg.fabTxrCfg = true ∧ (blkRing e).takes .control Reg.fabRxrCfg = true) ∧
    (let v : Word := 0x100000000
     let u := (blkRing 1).setFld Reg.fabTxrIdx 63 32 (bits v 63 32)
     let a := ringSlot ((blkRing 1).reg Reg.fabTxrCfg) (u.fld Reg.fabTxrIdx 31 0)
     (blkRing 1).ringBusy = false ∧ u.fld Reg.fabTxrIdx 31 0 ≠ bits v 63 32 ∧ reads (readWord a) u (fun h => decide ((blkRing 1).govern (bits h 47 40) = 0 ∧
       bits h 35 0 = 0 ∧ bits h 47 40 ≤ 48 ∧ 60 ≤ bits h 63 48 ∧ bits h 63 48 + 4 ≤ (blkRing 1).maxFrame 0 ∧ (((blkRing 1).port 0).inQueue (bits h 39 37)).length < 64) &&
       reads (readPa ⟨none⟩ (a + 64) (bits h 63 48)) u (fun _ => true)) = true ∧ (blkRing 1).laneSt 0 = 5) := by
  refine ⟨by decide +kernel, by decide +kernel, by decide +kernel, ?_, by decide +kernel, by decide +kernel⟩
  intro k hk x hx p t h
  simp only [List.mem_cons, List.not_mem_nil, or_false] at hk
  rcases hk with rfl | rfl <;>
    (have hx' := (by decide +kernel : ∀ k ∈ [TxKind.hello, .ring true], ∀ x ∈ ((blkTx k).port 0).txq, (match x.kind with
      | .pkt _ _ => false
      | _ => true) = true) _ (by simp) x hx; rw [h] at hx'; cases hx')

/-- Port 0 with flow control, its status word and the bytes that its receive buffer holds. -/
def blkFc (fc sts bytes : Nat) : Blk :=
  let b := blkMac 5 [(Reg.macFc 0, fc), (Reg.macFcSts 0, sts)]
  b.setPort 0 { b.port 0 with rx := [⟨{}, 3, bytes⟩] }

theorem witness_FlowControl :
    ((blkFc 0 8 0).fld (Reg.macFcSts 0) 7 0).testBit 3 = true ∧
    ((blkFc (1 <<< 62 ||| 9 <<< 32 ||| 2 <<< 16) 0x800 9000).fcOn 0 3 = true ∧
      ((blkFc (1 <<< 62 ||| 9 <<< 32 ||| 2 <<< 16) 0x800 9000).fld (Reg.macFcSts 0) 15 8).testBit 3 = true ∧
      (blkFc (1 <<< 62 ||| 9 <<< 32 ||| 2 <<< 16) 0x800 9000).xon 0 < (blkFc (1 <<< 62 ||| 9 <<< 32 ||| 2 <<< 16) 0x800 9000).fcHeld 0 3 ∧
      (blkFc (1 <<< 62 ||| 9 <<< 32 ||| 2 <<< 16) 0x800 9000).fld (Reg.macFc 0) 47 32 ≠ 0) ∧
    (((blkFc (2 <<< 62 ||| 8 <<< 24 ||| 2 <<< 16) 0x800 10).fld (Reg.macFcSts 0) 15 8).testBit 3 = true ∧
      (blkFc (2 <<< 62 ||| 8 <<< 24 ||| 2 <<< 16) 0x800 10).fcHeld 0 3 < (blkFc (2 <<< 62 ||| 8 <<< 24 ||| 2 <<< 16) 0x800 10).xon 0) ∧
    (((blkFc 0x500 8 0).fld (Reg.macFcSts 0) 7 0).testBit 3 = true ∧ (blkFc 0x500 8 0).fld (Reg.macFc 0) 15 8 ≠ 0 ∧
      ((blkFc 0x500 8 0).fld (Reg.macFcSts 0) 23 16).testBit 3 = false) := by decide +kernel

/-! ### Witnesses: the transport -/

/-- Package 1 with queue pair 1 cached towards context 0x22 of partition 0 of package 0, window 5 of partition 0 cached, its key, and `q` as it stands. -/
def blkXpt (q : QpSt) (e : Nat) : Blk := { blkRem with
  regs := [(Reg.xptPkey 0, 0x0004000000000099), (Reg.xptWinBase, 1), (Reg.coreSyncOwn 1 8191, 0x8000000000000000)].foldl
    (fun m x => sput m x.1 x.2) blkRem.regs
  xpt := { qps := [(1, some q)], cache := [[1], []], wins := [(5, [word e, 0, 0x3FFFFFFFFFF, 0])] } }

def aQp : QpSt := { peerQp := 0x22 }
/-- A packet from that peer. -/
def aPkt : Packet := { srcPkg := 0, dstPkg := 1, srcQp := 0x22, dstQp := 1, key := 0x99, kgen := 4, win := 5, first := true, last := true }

/-- The request waits in port 0, is the next one and passes its checks, and what it leaves passes a check. -/
def served (p : Packet) (k : Blk → Bool) : Bool :=
  let s := (blkXpt aQp 0xFC00000000000000).setPort 0 { (blkXpt aQp 0).port 0 with rx := [⟨p, 3, 200⟩] }
  okIs (takeIn p s) (fun _ u => @decide (u.nextRequest p 1 aQp) (by unfold Blk.nextRequest; infer_instance) &&
    reads (reqChecks p) ((touch 1 0).exec' u) (fun _ => k ((touch 1 0).exec' u)))

/-- One piece of the partition, which no pin or permute holds. -/
def onePiece (off n span : Nat) (perm : Perm) (v : Blk) (k : Nat → Region → Bool) : Bool :=
  reads (reqPieces 0 0 off n perm) v (fun ps => match ps with
    | [x] => decide (x.2.2 = n) && reads (writeGuard 0 off span ps) v (fun _ => k x.1 x.2.1)
    | _ => false)

theorem witness_RequestsServed :
    (∀ op ∈ [1, 2], served { aPkt with op := op, addr := 0x40000100, bytes := [1, 2, 3], opnd1 := word (16383 <<< 50) } (fun v =>
      onePiece 0x40000100 3 3 .wr v (fun a r => okIs (writeLinesAt a r [1, 2, 3] v) (fun _ _ => true))) = true) ∧
    (∀ op ∈ [1, 2], served { aPkt with op := op, addr := 0x40002000, frame := some {}, opnd1 := word (16383 <<< 50) } (fun v =>
      onePiece 0x40002000 8192 8192 .wr v (fun a r => okIs (writeFrameAt a r {} v) (fun _ _ => true))) = true) ∧
    (∀ fr ∈ [0, 1], served { aPkt with op := 3, addr := 0x40000000, opnd0 := 8192, opnd1 := word fr } (fun v =>
      reads (reqPieces 0 0 0x40000000 8192 .rd) v (fun ps => okIs (readParts (decide (fr = 1)) ps v) (fun l _ => decide (l.length = 1)))) = true) ∧
    (served { aPkt with op := 5, addr := 0x40000008, aux := 0x40000000, opnd0 := 7 } (fun v => onePiece 0x40000008 (atomSize 0) (atomSize 0) .wr v (fun a r =>
      okIs (atomicAt a r 1 0 7 0 v) (fun y _ => decide (y.2 = 0)))) = true ∧ atomOk 1 0 = true) ∧
    (∀ idx ∈ [0, 15], served { aPkt with op := 7, addr := 0x80002000, aux := BitVec.ofNat 32 (idx <<< 16), frame := some { hdr := { klog2 := 5 } } } (fun v =>
      onePiece 0x80002000 8192 8192 .wr v (fun a _ => okIs (arrive {
        addr := a, tag := 0, idx := BitVec.ofNat 6 idx, sfmt := 0, dfmt := some 0, f := { hdr := { klog2 := 5 } }, origin := none, pusher := none } v)
        (fun _ _ => true))) = true) := by decide +kernel

theorem witness_RequestChecks :
    let k := (blkXpt aQp 0xFC00000000000000).reg (Reg.xptPkey 0)
    (∀ e ∈ [0xFC00000000000000, 0x7C00000000000000], sget [] (blkXpt aQp e).xpt.wins (aPkt.dstPart.toNat * 256 + aPkt.win.toNat) =
      [word e, 0, 0x3FFFFFFFFFF, 0] ∧ bit (word e) 63 = decide (e = 0xFC00000000000000)) ∧
    ({ aPkt with kgen := 5 } : Packet).kgen.toNat ≠ bits k 63 48 ∧ aPkt.kgen.toNat = bits k 63 48 ∧ aPkt.key.toNat = bits k 47 0 ∧ aPkt.key ≠ 0 ∧
    ({ aPkt with key := 5 } : Packet).key.toNat ≠ bits k 47 0 ∧ bit ((blkXpt aQp 0).reg Reg.xptWinBase) 0 = true ∧
    (let p : Packet := { aPkt with op := 2, addr := 0x100, bytes := [1], opnd1 := word (16383 <<< 50) }
     let e : Word := 0xFC00000000000000
     (0 ≤ p.addr.toNat % 2 ^ 42 ∧ p.addr.toNat % 2 ^ 42 + reqSpan p ≤ 0x3FFFFFFFFFF + 1) ∧ bit e 61 = true ∧ bits e 57 56 = 0 ∧
       (givesSignal p = true ∧ bit e 58 = true ∧ (blkXpt aQp 0).ownsSync 0 (bits p.opnd1 63 50) = true) ∧
       bit (0x8000000000000000 : Word) 61 = false) := by decide +kernel

/-- Queue pair 1 with a tile add, a write, a read and an atomic under way. -/
def anAtom : Comp := { id := 1, slot := noSlot, ctx := 0, part := 0, pc := 0, word := 0, layer := 0, oper := 0 }
def busyQp : QpSt := { aQp with
  spsn := 4
  cmds := [⟨{ anAtom with id := 1 }, .rtadd, 0, 1, 0, [], none, true, 0, 0, 0⟩, ⟨{ anAtom with id := 2 }, .write, 0, 1, 0, [], none, true, 0, 0, 0⟩,
    ⟨{ anAtom with id := 3 }, .read false 0x40000000 64, 0, 1, 64, [], none, true, 0, 0, 0⟩,
    ⟨{ anAtom with id := 4 }, .atomic (some 0x40000000) 8, 0, 1, 1, [], none, true, 0, 0, 0⟩]
  sent := [⟨{ aPkt with op := 7, psn := 0 }, 1, none, false⟩, ⟨{ aPkt with op := 1, psn := 1 }, 2, none, false⟩,
    ⟨{ aPkt with op := 3, psn := 2 }, 3, none, false⟩, ⟨{ aPkt with op := 5, psn := 3 }, 4, none, false⟩] }

theorem witness_AnswersTaken :
    let b := blkXpt busyQp 0
    (∀ op ∈ [0x10, 0x11, 0x12, 0x04, 0x06], okIs (takeIn { aPkt with op := op } b) (fun _ u =>
      decide (u.qp 1 = some busyQp ∧ u.col = {} ∧ u.pkgNo = some 1)) = true) ∧
    (b.pkgNo = some aPkt.dstPkg.toNat ∧ aPkt.version = 1 ∧ aPkt.dstQp.toNat = 1 ∧ busyQp.err = none ∧ busyQp.matches aPkt = true) ∧
    busyQp.sent.any (fun x => decide (diff32 x.pkt.psn.toNat 1 ≤ 0)) = true ∧
    ((busyQp.named 0).all (fun x => decide (x.pkt.op = 7 ∧ x.pkt.op.toNat ≤ 0x07)) && (busyQp.named 0).isSome) = true ∧
    ((busyQp.named 1).all (fun x => decide (x.pkt.op ≠ 7 ∧ x.pkt.op.toNat ≤ 0x07)) && (busyQp.named 1).isSome) = true ∧
    busyQp.sent.any (fun x => decide (x.pkt.psn.toNat = 1)) = true ∧
    (busyQp.named 2).any (fun x => (busyQp.cmd x.cmd).any (fun c => decide (c.kind = .read false 0x40000000 64 ∧ c.want ≠ 0 ∧ c.stopAt = none ∧ c.got = []) &&
      okIs (putPart c false 0x40000000 { off := 0, bytes := List.replicate 64 1 } b) (fun st _ => decide (st = 0)))) = true ∧
    (busyQp.named 3).any (fun x => (busyQp.cmd x.cmd).any (fun c => decide (c.kind = .atomic (some 0x40000000) 8 ∧ c.want ≠ 0) &&
      okIs (vwrite ⟨some c.die⟩ c.comp.part 0x40000000 (natLe 8 5) b) (fun _ _ => true))) = true := by decide +kernel

/-- A transport whose context 1 is being fetched, and one whose retry limit is 3. -/
def blkFetch (l : List Nat) : Blk := { blkXpt aQp 0 with xpt := { (blkXpt aQp 0).xpt with cache := [l, []], fetching := [1] } }
def blkRto (q : QpSt) : Blk := { blkXpt q 0 with regs := sput (blkXpt q 0).regs Reg.xptCtrl (word (3 <<< 36)) }

theorem witness_TransportEvents :
    ((blkXpt { busyQp with rnr := some 1 } 0).qp 1 = some { busyQp with rnr := some 1 }) ∧
    ((blkXpt { aQp with unacked := 3 } 0).qp 1 = some { aQp with unacked := 3 } ∧ (blkXpt { aQp with unacked := 3 } 0).pkgNo = some 1 ∧
      (blkXpt { aQp with unacked := 3 } 0).xpt.pool = []) ∧
    ((blkRto busyQp).qp 1 = some busyQp ∧ busyQp.err = none ∧ busyQp.rnr = none ∧ busyQp.sent ≠ [] ∧ busyQp.retry < (blkRto busyQp).fld Reg.xptCtrl 39 36 ∧
      (blkRto busyQp).fld Reg.xptCtrl 39 36 ≤ ({ busyQp with retry := 3 } : QpSt).retry) ∧
    (∀ l ∈ [[1], []], (blkFetch l).xpt.fetching = [1] ∧ (blkFetch l).qp 1 = some aQp ∧ (blkFetch l).cached 1 0 = decide (l = [1]) ∧
      (blkFetch l).pinnedCtxs 0 + ((blkFetch l).cacheOf 0).length < 4096 ∧ (blkFetch l).xpt.miss = [] ∧ (blkFetch l).col = {}) ∧
    (let p : Packet := { aPkt with dstPkg := 0, op := 1 }
     (blkXpt aQp 0).pkgNo = some 1 ∧ p.dstPkg.toNat ≠ 1 ∧ okIs (takeIn p (blkXpt aQp 0)) (fun _ _ => true) = true ∧
      ¬(p.ttl.toNat ≤ 1 ∨ (blkXpt aQp 0).route p.dstPkg.toNat = none ∨ (blkXpt aQp 0).route p.dstPkg.toNat = some 0xA ∨
        4194304 < (blkXpt aQp 0).transitUsed 0 + 64 + (pktPayload p).length) ∧ ({ p with ttl := 1 } : Packet).ttl.toNat ≤ 1) := by decide +kernel

/-- Descriptors of queue pairs 2 and 3, of partitions 0 and 3; window 6 of partition 0 ends below its start. -/
def blkQps : Blk := { blkXpt aQp 0 with mem := { blkMem.mem with cells := (0xC8, 1) :: (519, 0x80) :: (774, 3) :: (775, 0x80) :: blkMem.mem.cells } }

theorem witness_QueuePairsAndWindows :
    (blkQps.takes .control Reg.xptQpCmd = true ∧ bit (blkQps.reg Reg.xptQpSts) 63 = false ∧ blkQps.qp 1 = some aQp ∧ blkQps.pkgNo = some 1) ∧
    (∀ n ∈ [2, 3], blkQps.qp n = none ∧ okIs (readWords (blkQps.ctxAddr n) 9 blkQps) (fun ws u => decide (bits (nth ws 0 0) 63 58 = 0x20 ∧ (qpOf ws).peerPkg ≠ 1 ∧
      blkQps.partOn (qpOf ws).part = decide (n = 2)) && okIs (saveQp n 1 (qpOf ws) (u.setQp n (some (qpOf ws)))) (fun _ _ => true)) = true) ∧
    (aQp.cmds = [] ∧ okIs (saveQp 1 0 aQp ((blkQps.dropFrames 1).setQp 1 (some aQp))) (fun _ _ => true) = true) ∧
    (aQp.err = none ∧ okIs (qpError 1 1 aQp.una blkQps) (fun _ _ => true) = true ∧ ({ aQp with err := some (1, 0, 0) } : QpSt).err ≠ none) ∧
    (blkQps.takes .control Reg.xptWinCmd = true ∧ bit (blkQps.reg Reg.xptWinSts) 63 = false) ∧
    (∀ w ∈ [5, 6], reads (readWords (blkQps.winAddr 0 w) 4) blkQps (fun ws => decide (bits (nth ws 0 2) 41 0 < bits (nth ws 0 1) 41 0) == decide (w = 6) &&
      okIs (putWin 0 w true ws blkQps) (fun _ _ => true) && okIs (putWin 0 w false ws blkQps) (fun _ _ => true)) = true) ∧
    ({ blkQps with xpt := { blkQps.xpt with revoking := some (0, 5) } } : Blk).xpt.revoking = some (0, 5) ∧
    (blkQps.takes .control (Reg.xptPkey 0) = true ∧ bits (7 : Word) 47 0 ≠ bits (blkQps.reg (Reg.xptPkey 0)) 47 0 ∧ blkQps.xpt.revoking = none ∧
      bits (0x99 : Word) 47 0 = bits (blkQps.reg (Reg.xptPkey 0)) 47 0) := by decide +kernel

/-! ### Witnesses: collectives -/

/-- The transport's package with the record of job 0 at 0x800: on axis 0 it is position 0 of a line of two, queue pair 1 leads to position 1, which is
package 0.  Slot 0's local store holds a collective's descriptor at VA 0xC000 and a permute's at 0xC100 with its table at 0xC200; S7 and S8 name them. -/
def colCells (kind pol : Nat) : List Host.Cell :=
  ([(0x803, 0x10), (0x907, 0x10), (0x90D, 0x10), (0x910, 1)] : List (Nat × Byte)) ++
  ([(0xC000, 1), (0xC006, BitVec.ofNat 8 (16 * pol)), (0xC007, BitVec.ofNat 8 (16 * kind)), (0xC00B, 1), (0xC00C, BitVec.ofNat 8 pol), (0xC012, 1), (0xC01A, 1),
    (0xC021, 0x90), (0xC02A, 2), (0xC036, 0xFC), (0xC037, 0xFF), (0xC100, 2), (0xC109, 0xC2), (0xC116, 0xFC), (0xC117, 0xFF), (0xC203, 0x80), (0xC207, 1),
    (0xC20A, 1), (0xC217, 0x10), (0xC21A, 1)] : List (Nat × Byte)).map (fun c => (0x080000000000 + c.1, c.2)) ++ tableCells
def blkJob (kind pol : Nat) : Blk := { blkXpt aQp 0 with
  regs := sput (blkXpt aQp 0).regs (Reg.colJob 0) 0x8000000000000800
  mem := { (blkXpt aQp 0).mem with cells := colCells kind pol }
  slots := [(0, { slotRun with s := (slotRun.s.setIfInBounds 7 0xC000).setIfInBounds 8 0xC100 })] }

theorem witness_CollectivesIssue :
    (∀ kp ∈ [(1, 0), (2, 0), (3, 0), (1, 2)], let w : Word := 0x6400000000000007
      let s := blkJob kp.1 kp.2
      let b := s.begun 0 w
      let c := s.cx 0 w
      let b1 : Blk := { b with nextId := b.nextId + 1, outst := b.outst ++ [Outst.mk b.nextId 0 c.ctx .coll] }
      wordOk w false (0, 0) = true ∧ rsvdOk w [(47, 47), (4, 0)] = true ∧ s.issuer aMember w 6 0x10 = some 0 ∧
      reads (descAddr c 0xC000 128 128) b (fun desc => reads (rdBytes c 0xC000 128 (fun _ _ _ => true)) b (fun bs =>
        let ws := (chunk 8 16 bs).map (fun x => word (leNat x))
        let g := nth ws (0 : Word)
        collForm ws (Fmt.ofCode (bits (g 0) 50 47)) (Fmt.ofCode (bits (g 0) 46 43)) && reads (jobFor c (bits (g 0) 59 56)) b (fun r =>
          let y := b.collOf c w desc ws r
          decide (bits (g 0) 31 0 = (bits (g 7) 63 32 + 1) % 2 ^ 32 ∧ y.kind = kp.1 ∧ y.pol = kp.2 ∧ y.len = 2 ∧ y.gives = true ∧ y.lost = 0) && b.ownsSync c.part y.obj &&
          (List.range y.len).all (fun i => (List.range y.tiles).all (fun t => reads (remLocal c (y.at y.src i t) .rd 8192) b (fun _ => true))) &&
          reads (armCheck y (some c) y.land y.pos) b (fun _ => true) && reads (collRange c y.dst (y.len * y.frames) .wr false) b (fun _ => true) &&
          (piecesOf y.recva (y.len * y.recLen)).all (fun q => reads (remLocal c q.1 .wr q.2) b (fun x => b.near c x.1 x.2)) &&
          (decide (y.pol ≠ 2) || reads (collRange c y.pbuf (y.len * y.frames) .wr true) b (fun _ => true)) && decide (b.col.colls = []) && decide (r.closed y.axis = 0) &&
          okIs ((do
            if y.kind = 2 then gatherBegin b.nextId else reduceBegin b.nextId
            colSettle : Act Unit) { b1 with col := { b1.col with colls := [y] } }) (fun _ _ => true)))) = true) ∧
    (let w : Word := 0x6440000000000008
     let s := blkJob 1 0
     let b := s.begun 0 w
     let c := s.cx 0 w
     let b1 : Blk := { b with nextId := b.nextId + 1, outst := b.outst ++ [Outst.mk b.nextId 0 c.ctx .coll] }
     wordOk w false (0, 0) = true ∧ rsvdOk w [(47, 47), (4, 0)] = true ∧ s.issuer aMember w 6 0x11 = some 0 ∧
     reads (descAddr c 0xC100 64 8) b (fun desc => reads (rdBytes c 0xC100 64 (fun _ _ _ => true)) b (fun bs =>
       let ws := (chunk 8 8 bs).map (fun x => word (leNat x))
       let g := nth ws (0 : Word)
       rsvdExt (g 0) [(59, 56), (55, 54), (8, 0)] && rsvdExt (g 1) [(41, 4)] && rsvdExt (g 2) [(63, 50), (49, 18)] &&
       decide (bits (g 0) 8 0 = 2 ∧ bits (g 1) 41 4 * 16 = 0xC200) && reads (descAddr c 0xC200 32 16) b (fun _ => true) && reads (jobFor c 0) b (fun r =>
         b.ownsSync c.part (bits (g 2) 63 50) && reads (rdBytes c 0xC200 32 (fun _ _ _ => true)) b (fun tb =>
           let es := (chunk 16 2 tb).map (fun y => (wordAt y 0, wordAt y 8))
           es.all (fun e => decide (bits e.1 63 60 < r.len 0 ∧ bits e.1 59 56 < r.len 0 ∧ bits e.1 63 60 ≠ bits e.1 59 56 ∧ bits e.1 55 42 = 0) &&
             rsvdExt e.1 [(63, 60), (59, 56), (55, 42), (41, 13)] && rsvdExt e.2 [(41, 13)] &&
             (if bits e.1 63 60 = r.pos 0 then reads (remLocal c (bits e.1 41 13 * 8192) .rd 8192) b (fun _ => true)
              else reads (translate c.part (bits e.2 41 13 * 8192) .wr) b (fun pa => (b.resolve pa).2.isStore))) &&
           decide (r.closed 0 = 0) && okIs (colSettle { b1 with col := { b1.col with perms := [b.permOf c w desc ws es r] } }) (fun _ _ => true))))) = true) := by
  refine ⟨by decide +kernel, by decide +kernel⟩

/-- A collective of slot 0 on that job; `owed` contributions, landings, policy. -/
def aColl (kind stage pol : Nat) (owed : List Nat) (lands : List (Nat × Nat)) : Coll :=
  { comp := { anAtom with id := 9, slot := 0, ctx := 1 }, die := 0, desc := 0x08000000C000, qps := [65536, 1], kind := kind, job := 0, axis := 0, pol := pol,
    order := false, fmt := .fp32, sfmt := .fp32, land := 0, step := 1, series := 0, deadline := 0, ltag := 1, frames := 1, src := 0x80000000, dst := 0x10000,
    recva := 0x9000, pbuf := 0x20000, obj := 16383, val := 1, len := 2, pos := 0, gives := true, stage := stage, owed := owed, lands := lands, s := 3 }
def blkColl (c : Coll) (l : Landing) : Blk := { blkJob 1 0 with
  col := { colls := [c] }
  slots := [(0, { slotRun with lands := slotRun.lands.setIfInBounds 0 l })] }
def aLand (adm : Option Nat) : Landing :=
  { st := .armed, frames := [0x40000008], expect := 2, recPas := [0x080000009000, 0x080000009008, 0x080000009010], bits := [1], coll := some 9, admitted := adm }

/-- A packet that is the next of queue pair 1. -/
def nextOne (s : Blk) (q : QpSt) (p : Packet) (k : Blk → Bool) : Bool :=
  okIs (takeIn p s) (fun _ u => @decide (u.nextRequest p 1 q) (by unfold Blk.nextRequest; infer_instance) && k ((touch 1 q.die).exec' u))

theorem witness_CollectivesProceed :
    (∀ c ∈ [aColl 3 0 0 [] [], aColl 1 0 0 [] [], aColl 1 0 0 [1] []], (blkColl c {}).coll 9 = some c ∧ (blkColl c {}).stepDone c = c.owed.isEmpty ∧
      ∀ y ∈ (blkColl c {}).col.colls.takeWhile (fun y => decide (y.comp.id ≠ 9)), False) ∧
    (∀ a ∈ [none, some 1], (blkColl (aColl 1 0 2 [] [(0, 0)]) (aLand a)).coll 9 = some (aColl 1 0 2 [] [(0, 0)]) ∧
      (blkColl (aColl 1 0 2 [] [(0, 0)]) (aLand a)).collHeld 9 = false ∧ ((blkColl (aColl 1 0 2 [] [(0, 0)]) (aLand a)).collLand (aColl 1 0 2 [] [(0, 0)]) 0).armed = true ∧
      ((blkColl (aColl 1 0 2 [] [(0, 0)]) (aLand a)).collLand (aColl 1 0 2 [] [(0, 0)]) 0).admitted = a) ∧
    (∀ op ∈ [0x31, 0x3B, 0x34], nextOne (blkColl (aColl 1 0 0 [] []) {}) aQp { aPkt with op := op, aux := 1 } (fun v =>
      reads (jobOfQp 1) v (fun x => x.isSome) && okIs (noticeIn 1 0 { aPkt with op := op, aux := 1 } v) (fun _ _ => true)) = true) ∧
    ((blkJob 1 0).takes .control (Reg.colJob 0) = true ∧ bit ((blkJob 1 0).reg (Reg.colJob 0)) 63 = true ∧ (blkJob 1 0).col.colls = [] ∧ (blkJob 1 0).col.perms = []) := by
  refine ⟨?_, by decide +kernel, by decide +kernel, by decide +kernel⟩
  intro c hc
  simp only [List.mem_cons, List.not_mem_nil, or_false] at hc
  rcases hc with rfl | rfl | rfl <;> exact ⟨by decide +kernel, by decide +kernel, fun y hy => by simp [blkColl, aColl, anAtom] at hy⟩

/-- The mirror's map at address 0, whose entry 5 names the first 2 MiB of DDR5, and a pairing in a state. -/
def blkMirror (part : Nat) (col map : Nat) : Blk := { blkXpt { aQp with part := part } 0 with
  regs := sput (sput (blkXpt aQp 0).regs Reg.colMirror (word (col <<< 60 ||| 1))) Reg.colMmap (word map)
  mem := { blkMem.mem with cells := (47, 0x80) :: blkMem.mem.cells }
  col := { unacked := [⟨1, 0x4000, 5⟩, ⟨2, 0x4000, 5⟩] } }
def mirrorPkt (op : BitVec 8) (part : Nat) : Packet :=
  { aPkt with op := op, dstPart := BitVec.ofNat 10 part, aux := 1, addr := word (0x040000000000 + 5 * 2 ^ 21 + 0x4000), frame := some {} }

theorem witness_MirrorCommands :
    (∀ op ∈ [0x38, 0x39], ∀ part ∈ [0, 3], nextOne (blkMirror part 9 0x8000000000000000) { aQp with part := part } (mirrorPkt op part) (fun v =>
      reads (jobOfQp 1) v (fun x => x.isNone) && okIs (mirrorIn 1 (mirrorPkt op part) v) (fun _ _ => true) && okIs (mirrorAcked 1 1 v) (fun _ _ => true)) = true) ∧
    (let b := blkMirror 0 9 0x8000000000000000
     let off := (mirrorPkt 0x38 0).addr.toNat - 0x040000000000
     bit (b.reg Reg.colMmap) 63 = true ∧ 0x040000000000 ≤ (mirrorPkt 0x38 0).addr.toNat ∧ off < 0x10000000000 ∧
      reads (readWord (b.fld Reg.colMmap 47 22 * 2 ^ 22 + 8 * (off / 2 ^ 21))) b (fun e => bit e 63 &&
        decide (b.resolve (bits e 47 21 * 2 ^ 21 + off % 2 ^ 21) = (0x4000, .ddr)) && okIs (writeFrameAt 0x4000 .ddr {} b) (fun _ _ => true)) = true) ∧
    bit ((blkMirror 0 9 0).reg Reg.colMmap) 63 = false ∧ 1 = (blkMirror 0 9 0).fld Reg.colMirror 15 0 ∧ (blkMirror 0 9 0).runs = [] ∧
    ((blkMirror 0 9 0).takes .control Reg.colMirror = true ∧ bit ((blkMirror 0 9 0).reg Reg.colMirror) 63 = true ∧
      (blkMirror 0 0 0).takes .control Reg.colMirror = true ∧ (blkMirror 0 0 0).fld Reg.colMirror 61 60 = 0) := by decide +kernel

/-- Lane 0 in a state, last heard from package 0. -/
def blkLoss (st : Nat) (jobs : Bool) : Blk :=
  let s := blkJob 1 0
  let b : Blk := { s with
    regs := sput (sput (if jobs then s.regs else sput s.regs (Reg.colJob 0) 0) (Reg.fabLaneCfg 0) 0x13C0) (Reg.fabLaneSts 0) (word (st <<< 60))
    xpt := if jobs then s.xpt else { s.xpt with qps := [] } }
  b.setPort 0 { b.port 0 with peer := some (77, 5) }

theorem witness_PackageLossDeclared :
    (blkLoss 5 false).pkgDown 0 = false ∧
    (∀ j ∈ [false, true], (blkLoss 6 j).pkgDown 0 = true ∧ (blkLoss 6 j).col.declared.contains 0 = false) ∧
    (reads jobsOn (blkLoss 6 false) (fun l => decide (l = [])) = true ∧ (blkLoss 6 false).xpt.qps = [] ∧ bit ((blkLoss 6 false).reg Reg.colMirror) 63 = false) ∧
    reads jobsOn (blkLoss 6 true) (fun l => match l with
      | [r] => decide (r.quar = false ∧ (List.range 4).flatMap (fun x => (r.posOf x 0).map (fun p => (x, p))) = [(0, 1)] ∧ 0 ≠ r.daxis) &&
        reads (readJob r.j) (({ blkLoss 6 true with col := { (blkLoss 6 true).col with declared := [0] } } : Blk).count (Reg.colCount 0 5) 63 0 1) (fun r' => decide (r' = r))
      | _ => false) = true := by decide +kernel

/-! ### Witnesses: partitions and trust -/

/-- Partition 3 in a state, PRT_ARG.SIZE. -/
def blkPart (st arg : Nat) : Blk := { blkMem with
  regs := sput (sput memRegs (Reg.prtPart 3) (word (st <<< 60))) Reg.prtArg (word (arg <<< 59)) }

theorem witness_PartitionCommands :
    (∀ x ∈ [(0, 26), (1, 26), (1, 27), (2, 0)], (blkPart x.1 x.2).takes .control Reg.prtCmd = true ∧ bit ((blkPart x.1 x.2).reg Reg.prtSts) 63 = false ∧
      (blkPart x.1 x.2).partState 3 = x.1 ∧ (blkPart x.1 x.2).fld Reg.prtArg 63 59 = x.2) ∧
    (blkPart 1 0).streamsOf 3 = [] ∧ (3 : BitVec 10).toNat ≠ 0 ∧ (0 : BitVec 10).toNat = 0 := by decide +kernel

/-- A package whose FIRMWARE stage has passed, with its policy and status words; `done`: it has reached READY. -/
def blkSec (policy status : Nat) (done : Nat) : Blk := { blkMem with
  regs := [(Reg.pkgStage 1, 2 <<< 60), (Reg.secPolicy, policy), (Reg.secStatus, status), (Reg.pkgStartSts, done <<< 59)].foldl (fun m x => sput m x.1 (word x.2)) memRegs }

theorem witness_IdentityRequests : Blk.reset.serves (.i3c 0) 0 = false ∧ (blkSec 0 0 0).serves .host 0 = true ∧ (blkSec 0 0 0).serves (.i3c 0) 0 = true ∧
    (1 : Nat) ≤ 8 ∧ (9 : Nat) ≠ 0xFF ∧ (5 : Nat) ≠ 0 ∧ (0 : Byte) ≠ 1 := by decide +kernel

/-- What the keys of a token and of an owner's certificate verify is open (Config); a state in which the owner's key is another always exists. -/
theorem witness_TrustRequests :
    (∀ p ∈ [0, 0xFFFF], (blkSec p 0 1).serves .host 3 = true ∧ (blkSec p 0 1).policy .host 3 = decide (p ≠ 0) ∧ (blkSec p 0 1).ownerSet = false ∧
      (blkSec p 0 1).serves .host 2 true = true ∧ (blkSec p 0 1).policy .host 2 = decide (p ≠ 0) ∧ (blkSec p 0 1).sec.agent = none) ∧
    (∃ b : Blk, b.serves .host 3 = true ∧ b.policy .host 3 = true ∧ b.ownerSet = true ∧ ¬(sha [] = b.ownerDigest ∧ Config.ed25519Verify [] [] [] = true)) ∧
    ({ blkSec 0xFFFF 0 1 with sec := { (blkSec 0xFFFF 0 1).sec with agent := some .host } } : Blk).sec.agent = some .host ∧
    (∀ d ∈ [0, 1], (blkSec 0xFFFF 0 d).serves .host 1 = true ∧ (blkSec 0xFFFF 0 d).started = decide (d = 1) ∧ (blkSec 0xFFFF 0 d).stopped = false) ∧
    ((blkSec 0 0 0).awake = true ∧ (blkSec 0 0 0).stopped = false ∧ (blkSec 0 0 0).stageOk 1 = true) ∧
    (let t : DebugToken := { serial := 0, nonce := 0, slot := 0, key := [], signature := [] }
     (blkSec 0 0 0).serves .host 0 = true ∧ (blkSec 0 0 0).tenants = false ∧ (blkSec 0 0 0).tokenOk { t with nonce := 7 } = false ∧
      (blkSec 0 0 0).tokenOk t = (decide (Config.sha512 [] = Config.keySlot 0) && Config.ed25519Verify [] (tokenBytes t) [])) := by
  refine ⟨by decide +kernel, ?_, rfl, by decide +kernel, by decide +kernel, by decide +kernel, by decide +kernel, ?_, ?_⟩
  · by_cases h : sha [] = (blkSec 0xFFFF 0x8000000000000 1).ownerDigest
    · refine ⟨{ blkSec 0xFFFF 0x8000000000000 1 with regs := sput (blkSec 0xFFFF 0x8000000000000 1).regs (Reg.secOwner 0) 1 }, by decide +kernel,
        by decide +kernel, by decide +kernel, fun g => ?_⟩
      exact absurd (h.symm.trans g.1) (by decide +kernel)
    · exact ⟨blkSec 0xFFFF 0x8000000000000 1, by decide +kernel, by decide +kernel, by decide +kernel, fun g => h g.1⟩
  · have h : ¬7 = (blkSec 0 0 0).fld Reg.secStatus 31 0 := by decide +kernel
    simp [Blk.tokenOk, h]
  · have h1 : (blkSec 0 0 0).sec.fuse.revoked.testBit 0 = false := by decide +kernel
    have h2 : (0 : Word) = (blkSec 0 0 0).reg Reg.pkgSerial := by decide +kernel
    have h3 : (0 : BitVec 32).toNat = (blkSec 0 0 0).fld Reg.secStatus 31 0 := by decide +kernel
    simp [Blk.tokenOk, h1, ← h2, ← h3]

/-! ### Witnesses: power, time and resets -/

/-- The package under power with words of the power monitor, the power status, the start status and the power configuration. -/
def blkPwr (p : PwrSt) (mon sts : Nat) : Blk := { blkMem with
  regs := [(Reg.aonPwrMon, mon), (Reg.aonPwrSts, sts), (Reg.pkgStartSts, 1 <<< 59), (Reg.aonPwrCfg, 1 <<< 16 ||| 100 <<< 8), (Reg.aonSaveBase, 1),
    (Reg.pkgSmap 0, 0x80)].foldl (fun m x => sput m x.1 (word x.2)) memRegs
  slots := [], pwr := p }
def onPwr : PwrSt := { main := true, on := true, powerFail := false }

theorem witness_SuppliesAndHeat :
    (∀ o ∈ [false, true], ({ off := o } : PwrSt).aux = true ∧ ({ off := o } : PwrSt).main = false ∧ ({ off := o } : PwrSt).resetWait = false) ∧
    (onPwr.aux = true ∧ onPwr.main = true ∧ onPwr.asleep = false ∧ onPwr.on = true) ∧ ({ aux := false } : PwrSt).aux = false ∧
    ((({} : PwrSt).norA.valid && !true) || (({} : PwrSt).norB.valid && !true)) = false ∧
    (∀ h ∈ [0, 0x2000], bit ((blkPwr onPwr h 0).reg Reg.aonPwrMon) 14 = false ∧ bit ((blkPwr onPwr h 0).reg Reg.aonPwrMon) 13 = decide (h ≠ 0)) ∧
    (let limit := 4 * min ((blkPwr onPwr 0 0).fld Reg.aonPwrCfg 15 8) 105
     limit < ([300, 401] : List Nat).foldl max 0 ∧ ([300, 390] : List Nat).foldl max 0 ≤ limit ∧ limit < ([300, 390] : List Nat).foldl max 0 + 12) ∧
    460 ≤ 470 ∧ 450 < 460 := by decide +kernel

theorem witness_TimeAndClocks :
    (∀ i < 4, (blkPwr onPwr 0 0).busyCore (coreKey 1 (4 * 2 + i)) = false) ∧ (∃ i < 4, blkRun.busyCore (coreKey 0 (4 * 0 + i)) = true) ∧
    (blkMem.takes .control Reg.aonTimeStep = true ∧ blkMem.takes .control Reg.aonTimeCtrl = true) ∧
    bit (blkMem.reg Reg.aonTimeCtrl) 61 = false ∧ bit (({ blkMem with regs := sput memRegs Reg.aonTimeCtrl 0x2000000000000000 } : Blk).reg Reg.aonTimeCtrl) 61 = true ∧
    (onPwr.aux = true ∧ onPwr.on = true ∧ ({} : PwrSt).on = false) := by
  refine ⟨by decide +kernel, ⟨0, by decide +kernel⟩, by decide +kernel, by decide +kernel, by decide +kernel, by decide +kernel⟩

/-- The package in Idle's reach: every cluster clock stopped. -/
def blkIdle : Blk := { blkPwr onPwr 0 0 with cores := (List.range 40).map (fun k => (k, { clockStopped := true })) }

theorem witness_PowerStates :
    (blkIdle.mayIdle = true ∧ (blkPwr onPwr 0 0).mayIdle = false) ∧ (∀ st < 5, (blkPwr onPwr 0 (st <<< 61)).fld Reg.aonPwrSts 63 61 = st) ∧
    (bit ((blkPwr onPwr 0 0).reg Reg.aonPwrSts) 60 = false ∧ (blkPwr onPwr 0 0).mayDoze = true ∧ (blkPwr onPwr 0 (3 <<< 61)).mayDoze = false ∧
      (blkPwr onPwr 0 0).takes .control Reg.aonPwrCmd = true ∧ (blkPwr onPwr 0 (3 <<< 61)).takes .control Reg.aonPwrCmd = true ∧
      (blkPwr onPwr 0 0).started = true ∧ (blkPwr onPwr 0 0).mem.merge = []) ∧
    bit ((blkPwr onPwr 0 (1 <<< 60)).reg Reg.aonPwrSts) 60 = true ∧ onPwr.diesOff = false ∧ (blkPwr onPwr 0 0).host.held = [] ∧
    (({ asleep := true } : PwrSt).asleep = true ∧ ({ asleep := true } : PwrSt).aux = true ∧ ({ asleep := true } : PwrSt).rstLow = false) ∧
    ({ rstLow := true } : PwrSt).rstLow = true ∧ bit ((blkPwr onPwr 0 0).reg Reg.aonAlarm) 63 = false ∧
    bit (({ blkMem with regs := sput memRegs Reg.aonAlarm 0x8000000000000000 } : Blk).reg Reg.aonAlarm) 63 = true := by decide +kernel

theorem witness_ResetsAndRestore :
    (bit ((blkPwr onPwr 0 0).reg Reg.aonPwrSts) 60 = false ∧ (blkPwr onPwr 0 0).fld Reg.aonPwrMon 31 20 < 380) ∧
    ¬((blkPwr onPwr (380 <<< 20) 0).fld Reg.aonPwrMon 31 20 < 380) ∧ (0x5A : Byte) ≠ 0xA5 ∧
    (({ resetWait := true } : PwrSt).resetWait = true ∧ onPwr.resetWait = false) ∧ (onPwr.aux = true ∧ onPwr.rstLow = false ∧ onPwr.asleep = false) ∧
    ((blkPwr onPwr 0 0).norPend = true ∧ (writeNor.exec' (blkPwr onPwr 0 0)).norPend = false) ∧
    ((blkPwr onPwr 0 0).regs.map (·.1)).Nodup ∧ onPwr.keep.number = none ∧
    ((regDesc Reg.xptCtrl).isSome = true ∧ Reg.xptCtrl ∉ [Reg.aonLost, Reg.aonAlarm, Reg.aonPwrSts, Reg.macWakeSts, Reg.memSeal, Reg.pkgStartCtrl, Reg.pkgIdent,
      Reg.pkgSerial, Reg.pkgCap, Reg.secStatus]) := by decide +kernel

/-! ### Witnesses: bring-up, faults, tests, observation -/

/-- A start whose stages below `n` have passed; the image of bank 0. -/
def anImage : Image :=
  { manifest := [], signature := [], key := [], slot := 0, svn := 0, version := 0, componentsMatch := true, revoke := 0, commitSvn := false, components := [] }
def blkStage (n : Nat) : Blk := { Blk.reset with
  regs := (List.range n).foldl (fun m i => sput m (Reg.pkgStage i) 0x2000000000000000) Blk.reset.regs
  sec := { Blk.reset.sec with bank0 := some anImage }
  pwr := { Blk.reset.pwr with main := true } }

/-- Whether the ROM accepts an image is open (Config); it does here whenever the two checks of R630 that are open succeed. -/
theorem witness_BringUpStages :
    (∀ n < 9, (blkStage n).mayBegin n = true ∧ (blkStage n).started = false ∧ (blkStage (n + 1)).mayBegin n = false) ∧
    (Blk.reset.mayBegin 0 = true ∧ Blk.reset.chooseBank = none) ∧
    (Config.sha512 [] = Config.keySlot 0 → Config.ed25519Verify [] [] [] = true → (blkStage 0).chooseBank = some (false, false)) ∧
    ((blkStage 0).bank false = some anImage ∧ anImage.svn < 256 ∧ (blkStage 1).runImage = some anImage) ∧
    (∀ d < 2, (blkStage 6).dieOut d = false ∧ (blkStage 6).fld (Reg.pkgDefect d) 39 20 = 0 ∧
      16 ≤ ((List.range 20).filter (fun p => ((blkStage 6).goodCores d).testBit p)).length ∧
      ((List.range 20).filter (fun p => ((blkStage 6).goodCores d).testBit p))[15]? = some 15) := by
  refine ⟨by decide +kernel, by decide +kernel, fun h1 h2 => ?_, by decide +kernel, by decide +kernel⟩
  have h3 : (blkStage 0).bank1First = false := by decide +kernel
  have h4 : (blkStage 0).bank false = some anImage := by decide +kernel
  have h5 : (blkStage 0).sec.fuse.revoked.testBit 0 = false := by decide +kernel
  have h6 : (blkStage 0).sec.fuse.svn = 0 := by decide +kernel
  simp [Blk.chooseBank, h3, h4, Blk.imageOk, anImage, h1, h2, h5, h6]

/-- A stage of units under way, with the units that train, those in full training and METHOD. -/
def blkTrain (n : Nat) (training full : List Nat) (method : Nat) : Blk := { blkStage n with
  regs := sput (blkStage n).regs (Reg.pkgStage n) (word (1 <<< 60 ||| method <<< 56))
  start := { Blk.reset.start with training := training.map (fun u => (n, u)), full := full.map (fun u => (n, u)) } }
/-- The identity fuses show. -/
def blkFitted (n : Nat) : Blk := { blkStage n with regs := sput (blkStage n).regs Reg.pkgCap 0xFF00000000 }

theorem witness_UnitsTrain :
    ((∀ n ∈ [3, 4, 5], (blkStage (n + 1)).mayBegin n = false ∧ (blkFitted n).mayBegin n = true ∧ (blkFitted n).started = false)) ∧
    (ucieFitted 0 = true ∧ (blkFitted 3).unitState 3 0 ≠ 3) ∧ (((blkFitted 4).fld Reg.pkgCap 39 32).testBit 0 = true ∧ (blkFitted 4).unitState 4 0 ≠ 3) ∧
    (nth ([] : List (Option Spd)) none 0 = none ∧ (blkFitted 5).start.training = []) ∧
    ((blkFitted 5).spdOk ⟨false, 32, 5600, true, 9⟩ = true ∧ (blkFitted 5).fld Reg.pkgUnitMem 31 16 = 0) ∧
    (∀ n ∈ [3, 4, 5], (blkTrain n [0, 1] [1] 1).stageRes n = 1 ∧ (n, 0) ∈ (blkTrain n [0, 1] [1] 1).start.training ∧
      (n, 1) ∈ (blkTrain n [0, 1] [1] 1).start.training ∧ (n, 0) ∉ (blkTrain n [0, 1] [1] 1).start.full ∧ (n, 1) ∈ (blkTrain n [0, 1] [1] 1).start.full ∧
      (blkTrain n [0, 1] [] 1).fld (Reg.pkgStage n) 59 56 ≠ 2 ∧ (blkTrain n [0, 1] [] 1).start.training.Nodup ∧ (blkTrain n [0, 1] [] 1).start.full = []) ∧
    ((blkTrain 7 [] [] 0).stageRes 7 = 1 ∧ Blk.reset.stageRes 7 ≠ 1) ∧
    bit (({ Blk.reset with regs := sput Blk.reset.regs Reg.secPolicy 1 } : Blk).reg Reg.secPolicy) 0 = true := by decide +kernel

/-- The package with its cores mapped, a core of logical number 0 in migrate class; `spare`: SPARE and GOOD show a free core; `moving`. -/
def blkCore (good : Nat) (moving : Option (Nat × Bool)) (x : Slot) : Blk := { Blk.reset with
  regs := [(Reg.pkgSmap 0, 0x80), (Reg.pkgSpare 0, good), (Reg.pkgFltCtrl, 1), (Reg.hceLinkSts, 1 <<< 56)].foldl (fun m y => sput m y.1 (word y.2)) Blk.reset.regs
  cores := [(0, { moving := moving })], slots := if x = {} then [] else [(0, x)] }

/-- A slot whose stationary tile is still being loaded. -/
def slotBusy : Slot := { slotRun with underReady := false }

theorem witness_FaultsContained :
    (∀ g ∈ [1, 3], ∀ x ∈ [({} : Slot), slotBusy], (blkCore g none x).logOf 0 0 = some 0 ∧ (blkCore g none x).migrates 0 0 (.sram 16) = true ∧
      (blkCore g none x).dieOut 0 = false ∧ (blkCore g none x).moving 0 0 = false ∧ (blkCore g none x).start.test = none ∧
      (blkCore g none x).spareFor 0 0 = (if g = 3 then some 1 else none) ∧
      (({ blkCore g none x with cores := [(0, { moving := some (1, false) })] } : Blk).drained 0 0 = decide (x = {}))) ∧
    ((blkCore 3 none {}).logOf 0 1 = none ∧ (blkCore 3 none {}).migrates 0 0 .arith = false) ∧
    (∀ x ∈ [({} : Slot), slotBusy], (blkCore 3 (some (1, false)) x).moving 0 0 = true ∧ (blkCore 3 (some (1, false)) x).drained 0 0 = decide (x = {})) ∧
    (({ blkCore 3 none {} with cores := [(0, { fenced := true })] } : Blk).core (coreKey 0 0)).fenced = true ∧
    (let b := blkCore 3 none {}
     (b.slots = [] ∧ b.engines = [] ∧ b.xpt = {} ∧ b.col = {} ∧ b.runs = [] ∧ b.resid = [] ∧ b.outst = [] ∧ b.sigs = [] ∧ b.flights = [] ∧ b.start.test = none ∧
      b.mem.merge = []) ∧ (b.core (coreKey 0 0)).fenced = false ∧ b.dieOut 0 = false ∧ b.logOf 0 0 = some 0 ∧ (∀ y < 16, b.physOf 0 y = some 0 → y = 0) ∧
      b.linkDown 0 = true ∧ b.stageRes 7 ≠ 1 ∧ (∀ n ∈ lanesOf 0, b.laneSt n ≠ 5)) ∧
    ({ Blk.reset with start := { Blk.reset.start with dieOut := 1 } } : Blk).dieOut 0 = true ∧
    ((Blk.reset.liveCtl 2).contains 1 = true ∧ sget 0 Blk.reset.start.wdogs (2 * 4 + 1) < 2 ∧ (Blk.reset.liveCtl 2).filter (fun y => decide (y ≠ 1)) ≠ [] ∧
      2 ≤ sget 0 ([(9, 2)] : SMap Nat) (2 * 4 + 1)) ∧
    (∀ e ∈ [0, 1], ({ Blk.reset with regs := sput Blk.reset.regs Reg.pkgEvtCfg (word (e <<< 63)) } : Blk).takes .control Reg.pkgEvtCfg = true ∧
      bit (({ Blk.reset with regs := sput Blk.reset.regs Reg.pkgEvtCfg (word (e <<< 63)) } : Blk).reg Reg.pkgEvtCfg) 63 = decide (e = 1)) := by decide +kernel

/-- A package at READY with an operation of PKG_TEST_CMD, and lane 0 in a state. -/
def blkTest (x : Option TestOp) (lane : Nat) : Blk := { blkCore 1 none {} with
  regs := [(Reg.pkgStartSts, 1 <<< 59), (Reg.pkgCalCtrl, 1), (Reg.pkgCap, 0xFFFF000000), (Reg.fabLaneSts 0, lane <<< 60)].foldl
    (fun m y => sput m y.1 (word y.2)) (blkCore 1 none {}).regs
  start := { (blkCore 1 none {}).start with test := x } }
def testWord (kind u wait : Nat) : Word := word (wait <<< 59 ||| kind <<< 52 ||| u <<< 40)

theorem witness_SelfTests :
    (∀ x ∈ [none, some ⟨true, 2, 0, 1, false, 0, 0⟩, some ⟨false, 0, 0, 5, false, 0, 0⟩], (blkTest x 0).takes .control Reg.pkgTestCmd = true) ∧
    ((blkTest none 0).testUnit false 7 0 0 = false ∧ (blkTest none 0).testUnit true 7 0 0 = false ∧ bits (testWord 7 0 0) 55 52 = 7) ∧
    ((blkTest none 0).testUnit true 2 0 1 = true ∧ bits (testWord 2 1 0) 55 52 = 2 ∧ bits (testWord 2 1 0) 45 40 = 1) ∧
    ((blkTest none 0).testUnit false 0 0 5 = true ∧ (blkTest none 0).logOf 0 5 = none ∧ bits (testWord 0 5 0) 55 52 = 0 ∧ bits (testWord 0 5 0) 45 40 = 5) ∧
    ((blkTest none 0).testUnit false 0 0 0 = true ∧ (blkTest none 0).logOf 0 0 = some 0 ∧ (blkTest none 0).spareFor 0 0 = none ∧ bit (testWord 0 0 0) 59 = false) ∧
    (∀ l ∈ [0, 5], (blkTest none l).testUnit false 1 0 0 = true ∧ (blkTest none l).laneSt ((blkTest none l).govern 0) = l) ∧
    (bits (testWord 1 0 1) 55 52 = 1 ∧ bit (testWord 1 0 1) 59 = true ∧ bit (testWord 1 0 0) 59 = false) ∧
    (∀ k ∈ [2, 3, 4], bit ((blkTest none 0).reg Reg.pkgCalCtrl) 0 = true ∧ (blkTest none 0).testUnit true k 0 1 = true) ∧
    ((blkTest (some ⟨false, 0, 0, 5, false, 0, 0⟩) 0).moving 0 5 = false ∧ (blkTest (some ⟨false, 0, 0, 5, false, 0, 0⟩) 0).logOf 0 5 = none) := by decide +kernel

/-- The package whose one bound slot waits for sync object 7, with the words of DBG_WFG_CTRL and DBG_WFG_BASE and a graph under way. -/
def blkWfg (slots : SMap Slot) (ctrl base : Nat) (g : Option Wfg) : Blk := { blkMem with
  regs := [(Reg.dbgWfgCtrl, ctrl), (Reg.dbgWfgBase, base), (Reg.cntCtrl, 1 <<< 63)].foldl (fun m y => sput m y.1 (word y.2)) memRegs
  slots := slots, dbg := { blkMem.dbg with wfg := g } }
def aGraph : Wfg := ⟨3, 0, 0, []⟩
def waiting : SMap Slot := [(0, { slotRun with wait := .sync 7 1 })]

theorem witness_ObservationCommands :
    (bit (blkMem.reg Reg.cntCtrl) 63 = false ∧ blkMem.takes .control Reg.cntCmd = true) ∧
    ((blkWfg waiting 0 0 none).slots = [(0, { slotRun with wait := .sync 7 1 })] ∧ (blkWfg waiting 0 0 none).takes .control Reg.cntCmd = true) ∧
    (bit (blkMem.reg Reg.cntViewBase) 0 = false ∧ sget 0 blkMem.dbg.gap 0 = 0) ∧
    (let b := blkWfg waiting (1 <<< 62) 0 none
     b.memberKey aMember = some 0 ∧ (b.slot 0).bound = true ∧ (b.slot 0).wait ≠ .none ∧ bit (b.reg Reg.dbgWfgCtrl) 62 = true ∧ b.dbg.wfg = none) ∧
    (∀ y ∈ (blkWfg waiting (1 <<< 62) 0 none).slots, ∀ q, y.2.wait ≠ .credit q) ∧
    ((blkRun.slot 0).wait = .none ∧ blkRun.memberKey aMember = some 0) ∧
    (∀ base ∈ [0, 5], (blkWfg [] 0 (base <<< 48) (some aGraph)).takes .control Reg.dbgWfgCtrl = true ∧ (blkWfg [] 0 (base <<< 48) (some aGraph)).dbg.wfg = some aGraph ∧
      (blkWfg [] 0 (base <<< 48) (some aGraph)).fld Reg.dbgWfgBase 63 48 = base) := by
  refine ⟨by decide +kernel, by decide +kernel, by decide +kernel, by decide +kernel, ?_, by decide +kernel, by decide +kernel⟩
  intro y hy q h
  simp only [blkWfg, waiting, List.mem_cons, List.not_mem_nil, or_false] at hy
  subst hy
  cases h

end Sys2Proof.Tests
end

/-! The accumulator tiles of one array: which cell of a tile the products of an activation row and a stationary column reach,
and what an integer or a floating accumulator makes of them (02_numbers.md R105 to R109). -/
namespace Sys2Proof.Machine

/-! ### Cells of a tile, row by row -/

/-- Rows of `w` cells laid end to end: cell `n` of row `j` stands at `w * j + n`. -/
theorem getElem?_flatMap_rows {α β : Type} {g : α → List β} {w n : Nat} (hg : ∀ x, (g x).length = w) (hn : n < w) (l : List α)
    (j : Nat) : (l.flatMap g)[w * j + n]? = l[j]?.bind (fun x => (g x)[n]?) := by
  induction l generalizing j with
  | nil => simp
  | cons x xs ih =>
    rw [List.flatMap_cons]
    cases j with
    | zero => rw [List.getElem?_append_left (by simp [hg, hn])]; simp
    | succ j =>
      have hidx : w * (j + 1) + n - (g x).length = w * j + n := by rw [hg, Nat.mul_succ]; omega
      rw [List.getElem?_append_right (by rw [hg, Nat.mul_succ]; omega), hidx, ih, List.getElem?_cons_succ]

theorem getElem?_eq_some_nth {α : Type} (l : List α) (d : α) {i : Nat} (h : i < l.length) : l[i]? = some (nth l d i) := by
  simp [nth, h]

theorem nth_eq_of_getElem? {α : Type} {l : List α} {d x : α} {i : Nat} (h : l[i]? = some x) : nth l d i = x := by
  simp [nth, h]

/-- Element `i` of a list of 64 whose elements carry their numbers. -/
theorem getElem?_numbered {α : Type} {l : List α} (d : α) (hl : l.length = 64) {i : Nat} (hi : i < 64) :
    (List.zipWith (fun i x => (i, x)) (List.range 64) l)[i]? = some (i, nth l d i) := by
  rw [List.getElem?_zipWith, List.getElem?_range hi, getElem?_eq_some_nth l d (hl ▸ hi)]

/-- Cell `64 * j + n` of a tile comes from activation row `j`. -/
theorem getElem?_tileCell {α β : Type} {g : Nat × α → List β} {act : List α} (d : α) {j n : Nat} (hact : act.length = 64)
    (hg : ∀ x, (g x).length = 64) (hj : j < 64) (hn : n < 64) :
    ((List.zipWith (fun j a => (j, a)) (List.range 64) act).flatMap g)[64 * j + n]? = (g (j, nth act d j))[n]? := by
  rw [getElem?_flatMap_rows hg hn, getElem?_numbered d hact hj, Option.bind_some]

/-! ### The floating accumulator -/

/-- R106: without a split operand a row is one cycle, in which the old value is a term unless the stream starts. -/
theorem fltPasses_single (f : FFmt) (win : Nat) (start : Bool) (prev : Nat) (t : List Val) :
    fltPasses f win start prev [t] = treeSum f win (if start then t else f.decode prev :: t) := rfl

theorem rowPasses_whole (act hi lo : List Val) : rowPasses act hi lo false = [List.zipWith Val.mul act hi] := rfl

/-- The passes of row `j` over column `n` are what a floating cell goes through. -/
theorem accumulate_float_cell (op : Operand) (w16 start : Bool) {act : List (List Val)} (prev : AccTile) {j n : Nat}
    (hact : act.length = 64) (hj : j < 64) (hn : n < 64) :
    nth (accumulate op false w16 start act prev).vals 0 (64 * j + n) =
      fltPasses (if w16 then f16 else f32) (if w16 then 23 else 39) start (nth prev.vals 0 (64 * j + n))
        (rowPasses (nth act [] j) (nth op.hi [] n) (nth op.lo [] n) op.split) := by
  apply nth_eq_of_getElem?
  simp only [accumulate, Bool.false_eq_true, if_false]
  rw [getElem?_tileCell [] hact (by simp) hj hn]
  simp [hn]

/-! ### The integer accumulator -/

/-- The exact sum of an old value and the integers of the terms. -/
def exactIntSum (prev : Int) (terms : List Val) : Int := terms.foldl (fun a t => a + t.int) prev

theorem exactIntSum_products (prev : Int) (ps qs : List Val) : exactIntSum prev (List.zipWith Val.mul ps qs) =
    (List.zipWith (fun p q => (p.mul q).int) ps qs).foldl (· + ·) prev := by
  rw [exactIntSum, ← List.map_zipWith (f := Val.int) (g := Val.mul), List.foldl_map]

/-- Two's complement of `w` bits holds every integer of its range. -/
theorem sext_emod_of_mem_range {w : Nat} (hw : 0 < w) {y : Int} (hlo : -(2 ^ (w - 1)) ≤ y) (hhi : y < 2 ^ (w - 1)) :
    sext (y % ((2 ^ w : Nat) : Int)).toNat w = y := by
  obtain ⟨v, rfl⟩ : ∃ v, w = v + 1 := ⟨w - 1, by omega⟩
  simp only [Nat.add_sub_cancel] at hlo hhi
  have hcast : ((2 ^ v : Nat) : Int) = 2 ^ v := by norm_cast
  have hpow : 2 ^ (v + 1) = 2 * 2 ^ v := by rw [Nat.pow_succ, Nat.mul_comm]
  rw [← hcast] at hlo hhi
  unfold sext
  rw [hpow]
  generalize 2 ^ v = p at *
  have hmod : (y % ((2 * p : Nat) : Int)).toNat % (2 * p) = (y % ((2 * p : Nat) : Int)).toNat := by
    apply Nat.mod_eq_of_lt; have := Int.emod_lt_of_pos y (b := ((2 * p : Nat) : Int)) (by omega); omega
  rw [hmod]
  by_cases hneg : y < 0
  · have hy : y % ((2 * p : Nat) : Int) = y + (2 * p : Nat) := by
      rw [← Int.add_emod_right, Int.emod_eq_of_lt (by omega) (by omega)]
    rw [hy, if_neg (by omega)]; omega
  · rw [Int.emod_eq_of_lt (by omega) (by omega), if_pos (by omega)]; omega

/-- R109: the accumulator holds the exact sum, or the end of its range nearest to it. -/
theorem sext_intAcc {w : Nat} (hw : 0 < w) (prev : Int) (terms : List Val) : sext (intAcc w prev terms).1 w =
    max (-(2 ^ (w - 1))) (min (exactIntSum prev terms) (2 ^ (w - 1) - 1)) := by
  have hpos : (0 : Int) < 2 ^ (w - 1) := Int.pow_pos (by decide)
  have hclamp : min (max (exactIntSum prev terms) (-((2 ^ (w - 1) : Nat) : Int))) (((2 ^ (w - 1) : Nat) : Int) - 1) =
      max (-(2 ^ (w - 1))) (min (exactIntSum prev terms) (2 ^ (w - 1) - 1)) := by push_cast; omega
  have hcell : (intAcc w prev terms).1 = ((max (-(2 ^ (w - 1))) (min (exactIntSum prev terms) (2 ^ (w - 1) - 1))) %
      ((2 ^ w : Nat) : Int)).toNat := by rw [← hclamp]; rfl
  rw [hcell]
  exact sext_emod_of_mem_range hw (by omega) (by omega)

/-- R109: a sum outside the range is marked. -/
theorem intAcc_saturates {w : Nat} {prev : Int} {terms : List Val}
    (h : exactIntSum prev terms < -(2 ^ (w - 1)) ∨ 2 ^ (w - 1) ≤ exactIntSum prev terms) : (intAcc w prev terms).2 = true := by
  have hpos : (0 : Int) < 2 ^ (w - 1) := Int.pow_pos (by decide)
  have hmark : (intAcc w prev terms).2 = decide (exactIntSum prev terms ≠
      min (max (exactIntSum prev terms) (-((2 ^ (w - 1) : Nat) : Int))) (((2 ^ (w - 1) : Nat) : Int) - 1)) := rfl
  rw [hmark, decide_eq_true_iff]
  push_cast
  omega

/-- What one cycle makes of the integer cell of row `j` and column `n`, and whether it saturates. -/
def intCell (op : Operand) (w : Nat) (start : Bool) (act : List (List Val)) (prev : AccTile) (j n : Nat) : Nat × Bool :=
  intAcc w (if start then 0 else sext (nth prev.vals 0 (64 * j + n)) w) (List.zipWith Val.mul (nth act [] j) (nth op.hi [] n))

/-- The cells of an integer tile with their marks: the values are theirs, and the sticky flag is set by any mark or kept. -/
theorem accumulate_int_cells (op : Operand) (w16 start : Bool) {act : List (List Val)} (prev : AccTile) {j n : Nat}
    (hact : act.length = 64) (hhi : op.hi.length = 64) (hj : j < 64) (hn : n < 64) :
    ∃ cells : List (Nat × Bool), (accumulate op true w16 start act prev).vals = cells.map (·.1) ∧
      (accumulate op true w16 start act prev).sat = ((!start && prev.sat) || cells.any (·.2)) ∧
      cells[64 * j + n]? = some (intCell op (if w16 then 16 else 32) start act prev j n) := by
  refine ⟨_, rfl, rfl, ?_⟩
  rw [getElem?_tileCell [] hact (by simp [hhi]) hj hn, List.getElem?_map, getElem?_numbered [] hhi hn]
  rfl

theorem accumulate_int_value (op : Operand) (w16 start : Bool) {act : List (List Val)} (prev : AccTile) {j n : Nat}
    (hact : act.length = 64) (hhi : op.hi.length = 64) (hj : j < 64) (hn : n < 64) :
    nth (accumulate op true w16 start act prev).vals 0 (64 * j + n) = (intCell op (if w16 then 16 else 32) start act prev j n).1 := by
  obtain ⟨cells, hvals, -, hcell⟩ := accumulate_int_cells op w16 start prev hact hhi hj hn
  apply nth_eq_of_getElem?
  rw [hvals, List.getElem?_map, hcell, Option.map_some]

theorem accumulate_int_sat_of_cell (op : Operand) (w16 start : Bool) {act : List (List Val)} (prev : AccTile) {j n : Nat}
    (hact : act.length = 64) (hhi : op.hi.length = 64) (hj : j < 64) (hn : n < 64)
    (h : (intCell op (if w16 then 16 else 32) start act prev j n).2 = true) : (accumulate op true w16 start act prev).sat = true := by
  obtain ⟨cells, -, hsat, hcell⟩ := accumulate_int_cells op w16 start prev hact hhi hj hn
  rw [hsat, List.any_eq_true.mpr ⟨_, List.mem_of_getElem? hcell, h⟩, Bool.or_true]

theorem accumulate_int_sat_sticky (op : Operand) (w16 : Bool) (act : List (List Val)) {prev : AccTile} (h : prev.sat = true) :
    (accumulate op true w16 false act prev).sat = true := by
  simp [accumulate, h]

/-! ### The statements -/

/-- Settles O23: the cell of row `j` and column `n` goes through one cycle, that of their products. -/
theorem accumulatorElements : Obligations.AccumulatorElements := by
  intro op w16 start act prev j n hj hn hact _ hsplit
  rw [accumulate_float_cell op w16 start prev hact hj hn, hsplit, rowPasses_whole]
  exact fltPasses_single _ _ _ _ _

/-- Settles O24: the cell of row `j` and column `n` is the exact sum clamped to the range, and its mark reaches the sticky flag. -/
theorem integerAccumulation : Obligations.IntegerAccumulation := by
  intro op w16 start act prev j n hj hn hact hhi bw x
  have hbw : 0 < bw := by cases w16 <;> decide
  have hx : exactIntSum (if start then 0 else sext (nth prev.vals 0 (64 * j + n)) bw)
      (List.zipWith Val.mul (nth act [] j) (nth op.hi [] n)) = x := exactIntSum_products _ _ _
  refine ⟨?_, fun hout => ?_, fun hstart hsat => ?_⟩
  · rw [accumulate_int_value op w16 start prev hact hhi hj hn, ← hx]
    exact sext_intAcc hbw _ _
  · apply accumulate_int_sat_of_cell op w16 start prev hact hhi hj hn
    exact intAcc_saturates (hx ▸ hout)
  · subst hstart
    exact accumulate_int_sat_sticky op w16 act hsat

end Sys2Proof.Machine
